-- ==== Sys2Proof/Word.lean ====
section
/-! DEFINITION. The word types of the machine (00_scope.md R6): the byte, the 16-bit word that every
register and offset is, and the 20-bit linear address. -/

namespace Sys2Proof

/-- The unit of transfer on both buses, 8 bits (R6, R80). -/
abbrev Byte := BitVec 8

/-- A 16-bit register, offset or port number (R6). -/
abbrev Word := BitVec 16

/-- A 20-bit linear address, so that address arithmetic wraps at 2^20 (R6, R81). -/
abbrev Addr := BitVec 20

/-- The low byte of a word, `v[7:0]` (R14). -/
def loByte (v : Word) : Byte := v.extractLsb' 0 8

/-- The high byte of a word, `v[15:8]` (R14). -/
def hiByte (v : Word) : Byte := v.extractLsb' 8 8

/-- `lo | (hi << 8)`: the word whose low byte is `lo` (R16, R101). -/
def mkWord (lo hi : Byte) : Word := hi ++ lo

end Sys2Proof
end

