-- ==== Sys2Proof/Syntax.lean ====
section
/-! DEFINITION. The instruction set as syntax: registers, operand forms, and one constructor of `Instr` per
row of spec/opcode_table.json (30_encoding.md R150, R163). Each constructor's comment gives the row's match
value and its name in the spec. -/

namespace Sys2Proof

/-- The eight 16-bit general registers, in the order of their numbers 0 to 7 (10_state.md R31). -/
inductive Reg16 where
  | ax | cx | dx | bx | sp | bp | si | di
deriving DecidableEq, Repr

/-- The eight 8-bit register names, in the order of their numbers 0 to 7 (10_state.md R32). -/
inductive Reg8 where
  | al | cl | dl | bl | ah | ch | dh | bh
deriving DecidableEq, Repr

/-- The four segment registers, in the order of their numbers 0 to 3 (10_state.md R36). -/
inductive SReg where
  | es | cs | ss | ds
deriving DecidableEq, Repr

/-- The register part of a ModR/M address, in the order of the `rm` field 0 to 7; `bp` is the `rm = 6` of
`mod = 1` and `mod = 2` (30_encoding.md R140). -/
inductive EaBase where
  | bxsi | bxdi | bpsi | bpdi | si | di | bp | bx
deriving DecidableEq, Repr

/-- The displacement bytes of a ModR/M address: none (`mod = 0`), one (`mod = 1`) or two (`mod = 2`)
(30_encoding.md R141). -/
inductive Disp where
  | none
  | d8 (v : Byte)
  | d16 (v : Word)
deriving DecidableEq, Repr

/-- A memory operand named by a ModR/M byte with `mod != 3` (30_encoding.md R140). -/
inductive Mem where
  | direct (disp : Word)                 -- mod = 0, rm = 6
  | based (base : EaBase) (disp : Disp)  -- every other mod != 3 form
deriving DecidableEq, Repr

/-- An `r/m` operand: a register (`mod = 3`) or a place in memory (30_encoding.md R135). -/
inductive RM (ρ : Type) where
  | reg (r : ρ)
  | mem (m : Mem)
deriving DecidableEq, Repr

/-- The repeat prefixes (10_state.md R44): `rep` is F3h, `repne` is F2h. -/
inductive Rep where
  | rep
  | repne
deriving DecidableEq, Repr

/-- The eight two-operand ALU operations, in the order of their numbers 0 to 7 (41_arithmetic.md R243). -/
inductive AluOp where
  | add | or | adc | sbb | and | sub | xor | cmp
deriving DecidableEq, Repr

/-- The seven shift and rotate operations of group 2 (30_encoding.md R152). -/
inductive ShiftOp where
  | rol | ror | rcl | rcr | shl | shr | sar
deriving DecidableEq, Repr

/-- The instructions: one constructor per row of the opcode table. -/
inductive Instr where
  -- ALU block 00h..3Dh, its segment pushes and pops, the segment override prefixes and the decimal adjusts (R150, R266)
  | addRm8R8 (rm : RM Reg8) (r : Reg8)  -- 0000 ADD r/m8, r8
  | addRm16R16 (rm : RM Reg16) (r : Reg16)  -- 0100 ADD r/m16, r16
  | addR8Rm8 (r : Reg8) (rm : RM Reg8)  -- 0200 ADD r8, r/m8
  | addR16Rm16 (r : Reg16) (rm : RM Reg16)  -- 0300 ADD r16, r/m16
  | addAlImm8 (imm : Byte)  -- 0400 ADD AL, imm8
  | addAxImm16 (imm : Word)  -- 0500 ADD AX, imm16
  | orRm8R8 (rm : RM Reg8) (r : Reg8)  -- 0800 OR r/m8, r8
  | orRm16R16 (rm : RM Reg16) (r : Reg16)  -- 0900 OR r/m16, r16
  | orR8Rm8 (r : Reg8) (rm : RM Reg8)  -- 0A00 OR r8, r/m8
  | orR16Rm16 (r : Reg16) (rm : RM Reg16)  -- 0B00 OR r16, r/m16
  | orAlImm8 (imm : Byte)  -- 0C00 OR AL, imm8
  | orAxImm16 (imm : Word)  -- 0D00 OR AX, imm16
  | adcRm8R8 (rm : RM Reg8) (r : Reg8)  -- 1000 ADC r/m8, r8
  | adcRm16R16 (rm : RM Reg16) (r : Reg16)  -- 1100 ADC r/m16, r16
  | adcR8Rm8 (r : Reg8) (rm : RM Reg8)  -- 1200 ADC r8, r/m8
  | adcR16Rm16 (r : Reg16) (rm : RM Reg16)  -- 1300 ADC r16, r/m16
  | adcAlImm8 (imm : Byte)  -- 1400 ADC AL, imm8
  | adcAxImm16 (imm : Word)  -- 1500 ADC AX, imm16
  | sbbRm8R8 (rm : RM Reg8) (r : Reg8)  -- 1800 SBB r/m8, r8
  | sbbRm16R16 (rm : RM Reg16) (r : Reg16)  -- 1900 SBB r/m16, r16
  | sbbR8Rm8 (r : Reg8) (rm : RM Reg8)  -- 1A00 SBB r8, r/m8
  | sbbR16Rm16 (r : Reg16) (rm : RM Reg16)  -- 1B00 SBB r16, r/m16
  | sbbAlImm8 (imm : Byte)  -- 1C00 SBB AL, imm8
  | sbbAxImm16 (imm : Word)  -- 1D00 SBB AX, imm16
  | andRm8R8 (rm : RM Reg8) (r : Reg8)  -- 2000 AND r/m8, r8
  | andRm16R16 (rm : RM Reg16) (r : Reg16)  -- 2100 AND r/m16, r16
  | andR8Rm8 (r : Reg8) (rm : RM Reg8)  -- 2200 AND r8, r/m8
  | andR16Rm16 (r : Reg16) (rm : RM Reg16)  -- 2300 AND r16, r/m16
  | andAlImm8 (imm : Byte)  -- 2400 AND AL, imm8
  | andAxImm16 (imm : Word)  -- 2500 AND AX, imm16
  | subRm8R8 (rm : RM Reg8) (r : Reg8)  -- 2800 SUB r/m8, r8
  | subRm16R16 (rm : RM Reg16) (r : Reg16)  -- 2900 SUB r/m16, r16
  | subR8Rm8 (r : Reg8) (rm : RM Reg8)  -- 2A00 SUB r8, r/m8
  | subR16Rm16 (r : Reg16) (rm : RM Reg16)  -- 2B00 SUB r16, r/m16
  | subAlImm8 (imm : Byte)  -- 2C00 SUB AL, imm8
  | subAxImm16 (imm : Word)  -- 2D00 SUB AX, imm16
  | xorRm8R8 (rm : RM Reg8) (r : Reg8)  -- 3000 XOR r/m8, r8
  | xorRm16R16 (rm : RM Reg16) (r : Reg16)  -- 3100 XOR r/m16, r16
  | xorR8Rm8 (r : Reg8) (rm : RM Reg8)  -- 3200 XOR r8, r/m8
  | xorR16Rm16 (r : Reg16) (rm : RM Reg16)  -- 3300 XOR r16, r/m16
  | xorAlImm8 (imm : Byte)  -- 3400 XOR AL, imm8
  | xorAxImm16 (imm : Word)  -- 3500 XOR AX, imm16
  | cmpRm8R8 (rm : RM Reg8) (r : Reg8)  -- 3800 CMP r/m8, r8
  | cmpRm16R16 (rm : RM Reg16) (r : Reg16)  -- 3900 CMP r/m16, r16
  | cmpR8Rm8 (r : Reg8) (rm : RM Reg8)  -- 3A00 CMP r8, r/m8
  | cmpR16Rm16 (r : Reg16) (rm : RM Reg16)  -- 3B00 CMP r16, r/m16
  | cmpAlImm8 (imm : Byte)  -- 3C00 CMP AL, imm8
  | cmpAxImm16 (imm : Word)  -- 3D00 CMP AX, imm16
  -- one-byte register forms 40h..5Fh
  | incR16 (r : Reg16)  -- 4000 INC r16
  | decR16 (r : Reg16)  -- 4800 DEC r16
  | pushR16 (r : Reg16)  -- 5000 PUSH r16
  | popR16 (r : Reg16)  -- 5800 POP r16
  -- conditional jumps 70h..7Fh (R369)
  | joRel8 (rel : Byte)  -- 7000 JO rel8
  | jnoRel8 (rel : Byte)  -- 7100 JNO rel8
  | jbRel8 (rel : Byte)  -- 7200 JB rel8
  | jnbRel8 (rel : Byte)  -- 7300 JNB rel8
  | jzRel8 (rel : Byte)  -- 7400 JZ rel8
  | jnzRel8 (rel : Byte)  -- 7500 JNZ rel8
  | jbeRel8 (rel : Byte)  -- 7600 JBE rel8
  | jnbeRel8 (rel : Byte)  -- 7700 JNBE rel8
  | jsRel8 (rel : Byte)  -- 7800 JS rel8
  | jnsRel8 (rel : Byte)  -- 7900 JNS rel8
  | jpRel8 (rel : Byte)  -- 7A00 JP rel8
  | jnpRel8 (rel : Byte)  -- 7B00 JNP rel8
  | jlRel8 (rel : Byte)  -- 7C00 JL rel8
  | jnlRel8 (rel : Byte)  -- 7D00 JNL rel8
  | jleRel8 (rel : Byte)  -- 7E00 JLE rel8
  | jnleRel8 (rel : Byte)  -- 7F00 JNLE rel8
  -- group 1, opcodes 80h..83h (R151)
  | addRm8Imm8 (rm : RM Reg8) (imm : Byte)  -- 8000 ADD r/m8, imm8
  | orRm8Imm8 (rm : RM Reg8) (imm : Byte)  -- 8008 OR r/m8, imm8
  | adcRm8Imm8 (rm : RM Reg8) (imm : Byte)  -- 8010 ADC r/m8, imm8
  | sbbRm8Imm8 (rm : RM Reg8) (imm : Byte)  -- 8018 SBB r/m8, imm8
  | andRm8Imm8 (rm : RM Reg8) (imm : Byte)  -- 8020 AND r/m8, imm8
  | subRm8Imm8 (rm : RM Reg8) (imm : Byte)  -- 8028 SUB r/m8, imm8
  | xorRm8Imm8 (rm : RM Reg8) (imm : Byte)  -- 8030 XOR r/m8, imm8
  | cmpRm8Imm8 (rm : RM Reg8) (imm : Byte)  -- 8038 CMP r/m8, imm8
  | addRm16Imm16 (rm : RM Reg16) (imm : Word)  -- 8100 ADD r/m16, imm16
  | orRm16Imm16 (rm : RM Reg16) (imm : Word)  -- 8108 OR r/m16, imm16
  | adcRm16Imm16 (rm : RM Reg16) (imm : Word)  -- 8110 ADC r/m16, imm16
  | sbbRm16Imm16 (rm : RM Reg16) (imm : Word)  -- 8118 SBB r/m16, imm16
  | andRm16Imm16 (rm : RM Reg16) (imm : Word)  -- 8120 AND r/m16, imm16
  | subRm16Imm16 (rm : RM Reg16) (imm : Word)  -- 8128 SUB r/m16, imm16
  | xorRm16Imm16 (rm : RM Reg16) (imm : Word)  -- 8130 XOR r/m16, imm16
  | cmpRm16Imm16 (rm : RM Reg16) (imm : Word)  -- 8138 CMP r/m16, imm16
  | addRm8Imm8Alias (rm : RM Reg8) (imm : Byte)  -- 8200 ADD r/m8, imm8 (alias of 80h)
  | orRm8Imm8Alias (rm : RM Reg8) (imm : Byte)  -- 8208 OR r/m8, imm8 (alias of 80h)
  | adcRm8Imm8Alias (rm : RM Reg8) (imm : Byte)  -- 8210 ADC r/m8, imm8 (alias of 80h)
  | sbbRm8Imm8Alias (rm : RM Reg8) (imm : Byte)  -- 8218 SBB r/m8, imm8 (alias of 80h)
  | andRm8Imm8Alias (rm : RM Reg8) (imm : Byte)  -- 8220 AND r/m8, imm8 (alias of 80h)
  | subRm8Imm8Alias (rm : RM Reg8) (imm : Byte)  -- 8228 SUB r/m8, imm8 (alias of 80h)
  | xorRm8Imm8Alias (rm : RM Reg8) (imm : Byte)  -- 8230 XOR r/m8, imm8 (alias of 80h)
  | cmpRm8Imm8Alias (rm : RM Reg8) (imm : Byte)  -- 8238 CMP r/m8, imm8 (alias of 80h)
  | addRm16Imm8 (rm : RM Reg16) (imm : Byte)  -- 8300 ADD r/m16, imm8 sign-extended
  | orRm16Imm8 (rm : RM Reg16) (imm : Byte)  -- 8308 OR r/m16, imm8 sign-extended
  | adcRm16Imm8 (rm : RM Reg16) (imm : Byte)  -- 8310 ADC r/m16, imm8 sign-extended
  | sbbRm16Imm8 (rm : RM Reg16) (imm : Byte)  -- 8318 SBB r/m16, imm8 sign-extended
  | andRm16Imm8 (rm : RM Reg16) (imm : Byte)  -- 8320 AND r/m16, imm8 sign-extended
  | subRm16Imm8 (rm : RM Reg16) (imm : Byte)  -- 8328 SUB r/m16, imm8 sign-extended
  | xorRm16Imm8 (rm : RM Reg16) (imm : Byte)  -- 8330 XOR r/m16, imm8 sign-extended
  | cmpRm16Imm8 (rm : RM Reg16) (imm : Byte)  -- 8338 CMP r/m16, imm8 sign-extended
  -- TEST, XCHG, MOV, LEA and POP with a ModR/M byte, 84h..8Fh
  | testRm8R8 (rm : RM Reg8) (r : Reg8)  -- 8400 TEST r/m8, r8
  | testRm16R16 (rm : RM Reg16) (r : Reg16)  -- 8500 TEST r/m16, r16
  | xchgRm8R8 (rm : RM Reg8) (r : Reg8)  -- 8600 XCHG r/m8, r8
  | xchgRm16R16 (rm : RM Reg16) (r : Reg16)  -- 8700 XCHG r/m16, r16
  | movRm8R8 (rm : RM Reg8) (r : Reg8)  -- 8800 MOV r/m8, r8
  | movRm16R16 (rm : RM Reg16) (r : Reg16)  -- 8900 MOV r/m16, r16
  | movR8Rm8 (r : Reg8) (rm : RM Reg8)  -- 8A00 MOV r8, r/m8
  | movR16Rm16 (r : Reg16) (rm : RM Reg16)  -- 8B00 MOV r16, r/m16
  | movRm16Es (rm : RM Reg16)  -- 8C00 MOV r/m16, ES
  | movRm16Cs (rm : RM Reg16)  -- 8C08 MOV r/m16, CS
  | movRm16Ss (rm : RM Reg16)  -- 8C10 MOV r/m16, SS
  | movRm16Ds (rm : RM Reg16)  -- 8C18 MOV r/m16, DS
  | leaR16M (r : Reg16) (m : Mem)  -- 8D00 LEA r16, m
  | movEsRm16 (rm : RM Reg16)  -- 8E00 MOV ES, r/m16
  | movSsRm16 (rm : RM Reg16)  -- 8E10 MOV SS, r/m16
  | movDsRm16 (rm : RM Reg16)  -- 8E18 MOV DS, r/m16
  | popRm16 (rm : RM Reg16)  -- 8F00 POP r/m16
  -- one-byte forms 90h..9Fh
  | callFarPtr (off : Word) (seg : Word)  -- 9A00 CALL far ptr16:16
  -- direct-offset MOV, string instructions, TEST with an immediate, A0h..AFh
  | movAlMoffs8 (off : Word)  -- A000 MOV AL, moffs8
  | movAxMoffs16 (off : Word)  -- A100 MOV AX, moffs16
  | movMoffs8Al (off : Word)  -- A200 MOV moffs8, AL
  | movMoffs16Ax (off : Word)  -- A300 MOV moffs16, AX
  | testAlImm8 (imm : Byte)  -- A800 TEST AL, imm8
  | testAxImm16 (imm : Word)  -- A900 TEST AX, imm16
  -- MOV register, immediate, B0h..BFh
  | movR8Imm8 (r : Reg8) (imm : Byte)  -- B000 MOV r8, imm8
  | movR16Imm16 (r : Reg16) (imm : Word)  -- B800 MOV r16, imm16
  -- returns, far pointer loads, MOV r/m with an immediate, software interrupts, C2h..CFh
  | retImm16 (imm : Word)  -- C200 RET imm16
  | lesR16M (r : Reg16) (m : Mem)  -- C400 LES r16, m16:16
  | ldsR16M (r : Reg16) (m : Mem)  -- C500 LDS r16, m16:16
  | movRm8Imm8 (rm : RM Reg8) (imm : Byte)  -- C600 MOV r/m8, imm8
  | movRm16Imm16 (rm : RM Reg16) (imm : Word)  -- C700 MOV r/m16, imm16
  | retfImm16 (imm : Word)  -- CA00 RETF imm16
  | intImm8 (vector : Byte)  -- CD00 INT imm8
  -- group 2, shifts and rotates, D0h..D3h (R152)
  | rolRm8One (rm : RM Reg8)  -- D000 ROL r/m8, 1
  | rorRm8One (rm : RM Reg8)  -- D008 ROR r/m8, 1
  | rclRm8One (rm : RM Reg8)  -- D010 RCL r/m8, 1
  | rcrRm8One (rm : RM Reg8)  -- D018 RCR r/m8, 1
  | shlRm8One (rm : RM Reg8)  -- D020 SHL r/m8, 1
  | shrRm8One (rm : RM Reg8)  -- D028 SHR r/m8, 1
  | sarRm8One (rm : RM Reg8)  -- D038 SAR r/m8, 1
  | rolRm16One (rm : RM Reg16)  -- D100 ROL r/m16, 1
  | rorRm16One (rm : RM Reg16)  -- D108 ROR r/m16, 1
  | rclRm16One (rm : RM Reg16)  -- D110 RCL r/m16, 1
  | rcrRm16One (rm : RM Reg16)  -- D118 RCR r/m16, 1
  | shlRm16One (rm : RM Reg16)  -- D120 SHL r/m16, 1
  | shrRm16One (rm : RM Reg16)  -- D128 SHR r/m16, 1
  | sarRm16One (rm : RM Reg16)  -- D138 SAR r/m16, 1
  | rolRm8Cl (rm : RM Reg8)  -- D200 ROL r/m8, CL
  | rorRm8Cl (rm : RM Reg8)  -- D208 ROR r/m8, CL
  | rclRm8Cl (rm : RM Reg8)  -- D210 RCL r/m8, CL
  | rcrRm8Cl (rm : RM Reg8)  -- D218 RCR r/m8, CL
  | shlRm8Cl (rm : RM Reg8)  -- D220 SHL r/m8, CL
  | shrRm8Cl (rm : RM Reg8)  -- D228 SHR r/m8, CL
  | sarRm8Cl (rm : RM Reg8)  -- D238 SAR r/m8, CL
  | rolRm16Cl (rm : RM Reg16)  -- D300 ROL r/m16, CL
  | rorRm16Cl (rm : RM Reg16)  -- D308 ROR r/m16, CL
  | rclRm16Cl (rm : RM Reg16)  -- D310 RCL r/m16, CL
  | rcrRm16Cl (rm : RM Reg16)  -- D318 RCR r/m16, CL
  | shlRm16Cl (rm : RM Reg16)  -- D320 SHL r/m16, CL
  | shrRm16Cl (rm : RM Reg16)  -- D328 SHR r/m16, CL
  | sarRm16Cl (rm : RM Reg16)  -- D338 SAR r/m16, CL
  -- AAM, AAD, XLAT, ESC, D4h..DFh
  | aamImm8 (imm : Byte)  -- D400 AAM imm8
  | aadImm8 (imm : Byte)  -- D500 AAD imm8
  | escRm (op : BitVec 6) (rm : RM Reg16)  -- D800 ESC opcode, r/m
  -- loops, port forms, relative and direct transfers, E0h..EFh
  | loopnzRel8 (rel : Byte)  -- E000 LOOPNZ rel8
  | loopzRel8 (rel : Byte)  -- E100 LOOPZ rel8
  | loopRel8 (rel : Byte)  -- E200 LOOP rel8
  | jcxzRel8 (rel : Byte)  -- E300 JCXZ rel8
  | inAlImm8 (port : Byte)  -- E400 IN AL, imm8
  | inAxImm8 (port : Byte)  -- E500 IN AX, imm8
  | outImm8Al (port : Byte)  -- E600 OUT imm8, AL
  | outImm8Ax (port : Byte)  -- E700 OUT imm8, AX
  | callRel16 (rel : Word)  -- E800 CALL rel16
  | jmpRel16 (rel : Word)  -- E900 JMP rel16
  | jmpFarPtr (off : Word) (seg : Word)  -- EA00 JMP far ptr16:16
  | jmpRel8 (rel : Byte)  -- EB00 JMP rel8
  -- prefixes, HLT, flag instructions, group 3, groups 4 and 5, F0h..FFh (R153, R154)
  | testRm8Imm8 (rm : RM Reg8) (imm : Byte)  -- F600 TEST r/m8, imm8
  | notRm8 (rm : RM Reg8)  -- F610 NOT r/m8
  | negRm8 (rm : RM Reg8)  -- F618 NEG r/m8
  | mulRm8 (rm : RM Reg8)  -- F620 MUL r/m8
  | imulRm8 (rm : RM Reg8)  -- F628 IMUL r/m8
  | divRm8 (rm : RM Reg8)  -- F630 DIV r/m8
  | idivRm8 (rm : RM Reg8)  -- F638 IDIV r/m8
  | testRm16Imm16 (rm : RM Reg16) (imm : Word)  -- F700 TEST r/m16, imm16
  | notRm16 (rm : RM Reg16)  -- F710 NOT r/m16
  | negRm16 (rm : RM Reg16)  -- F718 NEG r/m16
  | mulRm16 (rm : RM Reg16)  -- F720 MUL r/m16
  | imulRm16 (rm : RM Reg16)  -- F728 IMUL r/m16
  | divRm16 (rm : RM Reg16)  -- F730 DIV r/m16
  | idivRm16 (rm : RM Reg16)  -- F738 IDIV r/m16
  | incRm8 (rm : RM Reg8)  -- FE00 INC r/m8
  | decRm8 (rm : RM Reg8)  -- FE08 DEC r/m8
  | incRm16 (rm : RM Reg16)  -- FF00 INC r/m16
  | decRm16 (rm : RM Reg16)  -- FF08 DEC r/m16
  | callRm16 (rm : RM Reg16)  -- FF10 CALL r/m16
  | callFarM (m : Mem)  -- FF18 CALL far m16:16
  | jmpRm16 (rm : RM Reg16)  -- FF20 JMP r/m16
  | jmpFarM (m : Mem)  -- FF28 JMP far m16:16
  | pushRm16 (rm : RM Reg16)  -- FF30 PUSH r/m16
  -- rows whose only operands are implicit, and the prefix bytes, in the order of the table; they stand last because
  -- Lean's runtime gives a constructor with operands a tag of at most 244
  | pushEs  -- 0600 PUSH ES
  | popEs  -- 0700 POP ES
  | pushCs  -- 0E00 PUSH CS
  | pushSs  -- 1600 PUSH SS
  | popSs  -- 1700 POP SS
  | pushDs  -- 1E00 PUSH DS
  | popDs  -- 1F00 POP DS
  | prefixEs  -- 2600 ES: (segment override prefix)
  | daa  -- 2700 DAA
  | prefixCs  -- 2E00 CS: (segment override prefix)
  | das  -- 2F00 DAS
  | prefixSs  -- 3600 SS: (segment override prefix)
  | aaa  -- 3700 AAA
  | prefixDs  -- 3E00 DS: (segment override prefix)
  | aas  -- 3F00 AAS
  | nop  -- 9000 NOP
  | xchgAxCx  -- 9100 XCHG AX, CX
  | xchgAxDx  -- 9200 XCHG AX, DX
  | xchgAxBx  -- 9300 XCHG AX, BX
  | xchgAxSp  -- 9400 XCHG AX, SP
  | xchgAxBp  -- 9500 XCHG AX, BP
  | xchgAxSi  -- 9600 XCHG AX, SI
  | xchgAxDi  -- 9700 XCHG AX, DI
  | cbw  -- 9800 CBW
  | cwd  -- 9900 CWD
  | wait  -- 9B00 WAIT
  | pushf  -- 9C00 PUSHF
  | popf  -- 9D00 POPF
  | sahf  -- 9E00 SAHF
  | lahf  -- 9F00 LAHF
  | movsb  -- A400 MOVSB
  | movsw  -- A500 MOVSW
  | cmpsb  -- A600 CMPSB
  | cmpsw  -- A700 CMPSW
  | stosb  -- AA00 STOSB
  | stosw  -- AB00 STOSW
  | lodsb  -- AC00 LODSB
  | lodsw  -- AD00 LODSW
  | scasb  -- AE00 SCASB
  | scasw  -- AF00 SCASW
  | ret  -- C300 RET
  | retf  -- CB00 RETF
  | int3  -- CC00 INT3
  | into  -- CE00 INTO
  | iret  -- CF00 IRET
  | xlat  -- D700 XLAT
  | inAlDx  -- EC00 IN AL, DX
  | inAxDx  -- ED00 IN AX, DX
  | outDxAl  -- EE00 OUT DX, AL
  | outDxAx  -- EF00 OUT DX, AX
  | prefixLock  -- F000 LOCK (prefix)
  | prefixRepne  -- F200 REPNE / REPNZ (prefix)
  | prefixRep  -- F300 REP / REPE / REPZ (prefix)
  | hlt  -- F400 HLT
  | cmc  -- F500 CMC
  | clc  -- F800 CLC
  | stc  -- F900 STC
  | cli  -- FA00 CLI
  | sti  -- FB00 STI
  | cld  -- FC00 CLD
  | std  -- FD00 STD
deriving DecidableEq, Repr

end Sys2Proof
end

