-- ==== Sys2Proof/WellFormed.lean ====
section
/-! DEFINITION. Which terms of `Instr` are encodings' meanings. The only ill-formed operand is `[BP]` without
a displacement: `mod = 0, rm = 6` is the direct address, so `[BP]` alone has no encoding (30_encoding.md R140;
96_test_vectors_2.md E11). Every other field takes every value of its type. -/

namespace Sys2Proof

/-- `[BP]` with no displacement byte does not exist (R140). -/
def Mem.wf : Mem → Bool
  | .based .bp .none => false
  | _ => true

/-- A register operand is always well formed, a memory operand when its address form exists. -/
def RM.wf {ρ : Type} : RM ρ → Bool
  | .reg _ => true
  | .mem m => m.wf

/-- An instruction is well formed when its memory operand, if it has one, has an encoding. -/
def Instr.wf : Instr → Bool
  | .addRm8R8 rm _ => rm.wf
  | .addRm16R16 rm _ => rm.wf
  | .addR8Rm8 _ rm => rm.wf
  | .addR16Rm16 _ rm => rm.wf
  | .orRm8R8 rm _ => rm.wf
  | .orRm16R16 rm _ => rm.wf
  | .orR8Rm8 _ rm => rm.wf
  | .orR16Rm16 _ rm => rm.wf
  | .adcRm8R8 rm _ => rm.wf
  | .adcRm16R16 rm _ => rm.wf
  | .adcR8Rm8 _ rm => rm.wf
  | .adcR16Rm16 _ rm => rm.wf
  | .sbbRm8R8 rm _ => rm.wf
  | .sbbRm16R16 rm _ => rm.wf
  | .sbbR8Rm8 _ rm => rm.wf
  | .sbbR16Rm16 _ rm => rm.wf
  | .andRm8R8 rm _ => rm.wf
  | .andRm16R16 rm _ => rm.wf
  | .andR8Rm8 _ rm => rm.wf
  | .andR16Rm16 _ rm => rm.wf
  | .subRm8R8 rm _ => rm.wf
  | .subRm16R16 rm _ => rm.wf
  | .subR8Rm8 _ rm => rm.wf
  | .subR16Rm16 _ rm => rm.wf
  | .xorRm8R8 rm _ => rm.wf
  | .xorRm16R16 rm _ => rm.wf
  | .xorR8Rm8 _ rm => rm.wf
  | .xorR16Rm16 _ rm => rm.wf
  | .cmpRm8R8 rm _ => rm.wf
  | .cmpRm16R16 rm _ => rm.wf
  | .cmpR8Rm8 _ rm => rm.wf
  | .cmpR16Rm16 _ rm => rm.wf
  | .addRm8Imm8 rm _ => rm.wf
  | .orRm8Imm8 rm _ => rm.wf
  | .adcRm8Imm8 rm _ => rm.wf
  | .sbbRm8Imm8 rm _ => rm.wf
  | .andRm8Imm8 rm _ => rm.wf
  | .subRm8Imm8 rm _ => rm.wf
  | .xorRm8Imm8 rm _ => rm.wf
  | .cmpRm8Imm8 rm _ => rm.wf
  | .addRm16Imm16 rm _ => rm.wf
  | .orRm16Imm16 rm _ => rm.wf
  | .adcRm16Imm16 rm _ => rm.wf
  | .sbbRm16Imm16 rm _ => rm.wf
  | .andRm16Imm16 rm _ => rm.wf
  | .subRm16Imm16 rm _ => rm.wf
  | .xorRm16Imm16 rm _ => rm.wf
  | .cmpRm16Imm16 rm _ => rm.wf
  | .addRm8Imm8Alias rm _ => rm.wf
  | .orRm8Imm8Alias rm _ => rm.wf
  | .adcRm8Imm8Alias rm _ => rm.wf
  | .sbbRm8Imm8Alias rm _ => rm.wf
  | .andRm8Imm8Alias rm _ => rm.wf
  | .subRm8Imm8Alias rm _ => rm.wf
  | .xorRm8Imm8Alias rm _ => rm.wf
  | .cmpRm8Imm8Alias rm _ => rm.wf
  | .addRm16Imm8 rm _ => rm.wf
  | .orRm16Imm8 rm _ => rm.wf
  | .adcRm16Imm8 rm _ => rm.wf
  | .sbbRm16Imm8 rm _ => rm.wf
  | .andRm16Imm8 rm _ => rm.wf
  | .subRm16Imm8 rm _ => rm.wf
  | .xorRm16Imm8 rm _ => rm.wf
  | .cmpRm16Imm8 rm _ => rm.wf
  | .testRm8R8 rm _ => rm.wf
  | .testRm16R16 rm _ => rm.wf
  | .xchgRm8R8 rm _ => rm.wf
  | .xchgRm16R16 rm _ => rm.wf
  | .movRm8R8 rm _ => rm.wf
  | .movRm16R16 rm _ => rm.wf
  | .movR8Rm8 _ rm => rm.wf
  | .movR16Rm16 _ rm => rm.wf
  | .movRm16Es rm => rm.wf
  | .movRm16Cs rm => rm.wf
  | .movRm16Ss rm => rm.wf
  | .movRm16Ds rm => rm.wf
  | .leaR16M _ m => m.wf
  | .movEsRm16 rm => rm.wf
  | .movSsRm16 rm => rm.wf
  | .movDsRm16 rm => rm.wf
  | .popRm16 rm => rm.wf
  | .lesR16M _ m => m.wf
  | .ldsR16M _ m => m.wf
  | .movRm8Imm8 rm _ => rm.wf
  | .movRm16Imm16 rm _ => rm.wf
  | .rolRm8One rm => rm.wf
  | .rorRm8One rm => rm.wf
  | .rclRm8One rm => rm.wf
  | .rcrRm8One rm => rm.wf
  | .shlRm8One rm => rm.wf
  | .shrRm8One rm => rm.wf
  | .sarRm8One rm => rm.wf
  | .rolRm16One rm => rm.wf
  | .rorRm16One rm => rm.wf
  | .rclRm16One rm => rm.wf
  | .rcrRm16One rm => rm.wf
  | .shlRm16One rm => rm.wf
  | .shrRm16One rm => rm.wf
  | .sarRm16One rm => rm.wf
  | .rolRm8Cl rm => rm.wf
  | .rorRm8Cl rm => rm.wf
  | .rclRm8Cl rm => rm.wf
  | .rcrRm8Cl rm => rm.wf
  | .shlRm8Cl rm => rm.wf
  | .shrRm8Cl rm => rm.wf
  | .sarRm8Cl rm => rm.wf
  | .rolRm16Cl rm => rm.wf
  | .rorRm16Cl rm => rm.wf
  | .rclRm16Cl rm => rm.wf
  | .rcrRm16Cl rm => rm.wf
  | .shlRm16Cl rm => rm.wf
  | .shrRm16Cl rm => rm.wf
  | .sarRm16Cl rm => rm.wf
  | .escRm _ rm => rm.wf
  | .testRm8Imm8 rm _ => rm.wf
  | .notRm8 rm => rm.wf
  | .negRm8 rm => rm.wf
  | .mulRm8 rm => rm.wf
  | .imulRm8 rm => rm.wf
  | .divRm8 rm => rm.wf
  | .idivRm8 rm => rm.wf
  | .testRm16Imm16 rm _ => rm.wf
  | .notRm16 rm => rm.wf
  | .negRm16 rm => rm.wf
  | .mulRm16 rm => rm.wf
  | .imulRm16 rm => rm.wf
  | .divRm16 rm => rm.wf
  | .idivRm16 rm => rm.wf
  | .incRm8 rm => rm.wf
  | .decRm8 rm => rm.wf
  | .incRm16 rm => rm.wf
  | .decRm16 rm => rm.wf
  | .callRm16 rm => rm.wf
  | .callFarM m => m.wf
  | .jmpRm16 rm => rm.wf
  | .jmpFarM m => m.wf
  | .pushRm16 rm => rm.wf
  | .addAlImm8 _ | .addAxImm16 _ | .pushEs | .popEs | .orAlImm8 _
  | .orAxImm16 _ | .pushCs | .adcAlImm8 _ | .adcAxImm16 _ | .pushSs
  | .popSs | .sbbAlImm8 _ | .sbbAxImm16 _ | .pushDs | .popDs
  | .andAlImm8 _ | .andAxImm16 _ | .prefixEs | .daa | .subAlImm8 _
  | .subAxImm16 _ | .prefixCs | .das | .xorAlImm8 _ | .xorAxImm16 _
  | .prefixSs | .aaa | .cmpAlImm8 _ | .cmpAxImm16 _ | .prefixDs
  | .aas | .incR16 _ | .decR16 _ | .pushR16 _ | .popR16 _
  | .joRel8 _ | .jnoRel8 _ | .jbRel8 _ | .jnbRel8 _ | .jzRel8 _
  | .jnzRel8 _ | .jbeRel8 _ | .jnbeRel8 _ | .jsRel8 _ | .jnsRel8 _
  | .jpRel8 _ | .jnpRel8 _ | .jlRel8 _ | .jnlRel8 _ | .jleRel8 _
  | .jnleRel8 _ | .nop | .xchgAxCx | .xchgAxDx | .xchgAxBx
  | .xchgAxSp | .xchgAxBp | .xchgAxSi | .xchgAxDi | .cbw
  | .cwd | .callFarPtr _ _ | .wait | .pushf | .popf
  | .sahf | .lahf | .movAlMoffs8 _ | .movAxMoffs16 _ | .movMoffs8Al _
  | .movMoffs16Ax _ | .movsb | .movsw | .cmpsb | .cmpsw
  | .testAlImm8 _ | .testAxImm16 _ | .stosb | .stosw | .lodsb
  | .lodsw | .scasb | .scasw | .movR8Imm8 _ _ | .movR16Imm16 _ _
  | .retImm16 _ | .ret | .retfImm16 _ | .retf | .int3
  | .intImm8 _ | .into | .iret | .aamImm8 _ | .aadImm8 _
  | .xlat | .loopnzRel8 _ | .loopzRel8 _ | .loopRel8 _ | .jcxzRel8 _
  | .inAlImm8 _ | .inAxImm8 _ | .outImm8Al _ | .outImm8Ax _ | .callRel16 _
  | .jmpRel16 _ | .jmpFarPtr _ _ | .jmpRel8 _ | .inAlDx | .inAxDx
  | .outDxAl | .outDxAx | .prefixLock | .prefixRepne | .prefixRep
  | .hlt | .cmc | .clc | .stc | .cli
  | .sti | .cld | .std => true

end Sys2Proof
end

