-- ==== Sys2Proof/Decode.lean ====
section
/-! DEFINITION. The decoder and the encoder (30_encoding.md). `decode` reads one instruction, or one prefix
byte, from a list of bytes and gives it with the bytes left over, or says by name why it cannot; `encode`
writes the bytes of an instruction. The opcode map `opcodeLayout` follows R150 and the group tables R151 to
R156; whatever it leaves out is an invalid encoding of R160. -/

namespace Sys2Proof

/-- Why bytes are no instruction. A step that meets `truncated` fetches one byte more (R17, R130). -/
inductive DecodeError where
  /-- The list ends before the instruction does. -/
  | truncated
  /-- An opcode byte that the map leaves unused (R160). -/
  | invalidOpcode (op : Byte)
  /-- A ModR/M byte that its opcode makes invalid: an unused group sub-code, an invalid segment register number,
  or a register form of a memory-only instruction (R160). -/
  | invalidForm (op modrm : Byte)
deriving DecidableEq, Repr

/-! ### Field values (R31, R32, R36, R134, R135, R140) -/

/-- The 16-bit register with a number (R31). -/
def reg16Of (n : BitVec 3) : Reg16 :=
  match n.toNat with
  | 0 => .ax | 1 => .cx | 2 => .dx | 3 => .bx | 4 => .sp | 5 => .bp | 6 => .si | _ => .di

/-- The number of a 16-bit register (R31). -/
def Reg16.code : Reg16 → BitVec 3
  | .ax => 0 | .cx => 1 | .dx => 2 | .bx => 3 | .sp => 4 | .bp => 5 | .si => 6 | .di => 7

/-- The 8-bit register with a number (R32). -/
def reg8Of (n : BitVec 3) : Reg8 :=
  match n.toNat with
  | 0 => .al | 1 => .cl | 2 => .dl | 3 => .bl | 4 => .ah | 5 => .ch | 6 => .dh | _ => .bh

/-- The number of an 8-bit register (R32). -/
def Reg8.code : Reg8 → BitVec 3
  | .al => 0 | .cl => 1 | .dl => 2 | .bl => 3 | .ah => 4 | .ch => 5 | .dh => 6 | .bh => 7

/-- The register part of an address with an `rm` field (R140). -/
def eaBaseOf (n : BitVec 3) : EaBase :=
  match n.toNat with
  | 0 => .bxsi | 1 => .bxdi | 2 => .bpsi | 3 => .bpdi | 4 => .si | 5 => .di | 6 => .bp | _ => .bx

/-- The `rm` field of an address (R140). -/
def EaBase.code : EaBase → BitVec 3
  | .bxsi => 0 | .bxdi => 1 | .bpsi => 2 | .bpdi => 3 | .si => 4 | .di => 5 | .bp => 6 | .bx => 7

/-- The ALU operation with a number (R243, R151). -/
def aluOpOf (n : BitVec 3) : AluOp :=
  match n.toNat with
  | 0 => .add | 1 => .or | 2 => .adc | 3 => .sbb | 4 => .and | 5 => .sub | 6 => .xor | _ => .cmp

/-- The number of an ALU operation (R243, R151). -/
def AluOp.code : AluOp → BitVec 3
  | .add => 0 | .or => 1 | .adc => 2 | .sbb => 3 | .and => 4 | .sub => 5 | .xor => 6 | .cmp => 7

/-- The shift or rotate of group 2 with a number; `/6` is invalid (R152). -/
def shiftOpOf (n : BitVec 3) : Option ShiftOp :=
  match n.toNat with
  | 0 => some .rol | 1 => some .ror | 2 => some .rcl | 3 => some .rcr | 4 => some .shl | 5 => some .shr | 6 => none
  | _ => some .sar

/-- The number of a shift or rotate of group 2 (R152). -/
def ShiftOp.code : ShiftOp → BitVec 3
  | .rol => 0 | .ror => 1 | .rcl => 2 | .rcr => 3 | .shl => 4 | .shr => 5 | .sar => 7

/-- `mod = m[7:6]` (R135). -/
def modOf (m : Byte) : BitVec 2 := m.extractLsb' 6 2

/-- `reg = m[5:3]` (R135). -/
def regOf (m : Byte) : BitVec 3 := m.extractLsb' 3 3

/-- `rm = m[2:0]`, also the register number in the low bits of an opcode (R133, R135). -/
def rmOf (m : Byte) : BitVec 3 := m.extractLsb' 0 3

/-- A ModR/M byte from its fields (R135). -/
def modrm (md : BitVec 2) (reg rm : BitVec 3) : Byte := md ++ reg ++ rm

/-! ### The rows of one shape, by operation number -/

/-- The instruction of form `8n+0` with operation number n (R266). -/
def aluRm8R8 : AluOp → RM Reg8 → Reg8 → Instr
  | .add => .addRm8R8 | .or => .orRm8R8 | .adc => .adcRm8R8 | .sbb => .sbbRm8R8
  | .and => .andRm8R8 | .sub => .subRm8R8 | .xor => .xorRm8R8 | .cmp => .cmpRm8R8

/-- The instruction of form `8n+1` with operation number n (R266). -/
def aluRm16R16 : AluOp → RM Reg16 → Reg16 → Instr
  | .add => .addRm16R16 | .or => .orRm16R16 | .adc => .adcRm16R16 | .sbb => .sbbRm16R16
  | .and => .andRm16R16 | .sub => .subRm16R16 | .xor => .xorRm16R16 | .cmp => .cmpRm16R16

/-- The instruction of form `8n+2` with operation number n (R266). -/
def aluR8Rm8 : AluOp → Reg8 → RM Reg8 → Instr
  | .add => .addR8Rm8 | .or => .orR8Rm8 | .adc => .adcR8Rm8 | .sbb => .sbbR8Rm8
  | .and => .andR8Rm8 | .sub => .subR8Rm8 | .xor => .xorR8Rm8 | .cmp => .cmpR8Rm8

/-- The instruction of form `8n+3` with operation number n (R266). -/
def aluR16Rm16 : AluOp → Reg16 → RM Reg16 → Instr
  | .add => .addR16Rm16 | .or => .orR16Rm16 | .adc => .adcR16Rm16 | .sbb => .sbbR16Rm16
  | .and => .andR16Rm16 | .sub => .subR16Rm16 | .xor => .xorR16Rm16 | .cmp => .cmpR16Rm16

/-- The instruction of form `8n+4` with operation number n (R266). -/
def aluAlImm8 : AluOp → Byte → Instr
  | .add => .addAlImm8 | .or => .orAlImm8 | .adc => .adcAlImm8 | .sbb => .sbbAlImm8
  | .and => .andAlImm8 | .sub => .subAlImm8 | .xor => .xorAlImm8 | .cmp => .cmpAlImm8

/-- The instruction of form `8n+5` with operation number n (R266). -/
def aluAxImm16 : AluOp → Word → Instr
  | .add => .addAxImm16 | .or => .orAxImm16 | .adc => .adcAxImm16 | .sbb => .sbbAxImm16
  | .and => .andAxImm16 | .sub => .subAxImm16 | .xor => .xorAxImm16 | .cmp => .cmpAxImm16

/-- The instruction of form `80h /n` with operation number n (R266). -/
def aluRm8Imm8 : AluOp → RM Reg8 → Byte → Instr
  | .add => .addRm8Imm8 | .or => .orRm8Imm8 | .adc => .adcRm8Imm8 | .sbb => .sbbRm8Imm8
  | .and => .andRm8Imm8 | .sub => .subRm8Imm8 | .xor => .xorRm8Imm8 | .cmp => .cmpRm8Imm8

/-- The instruction of form `81h /n` with operation number n (R266). -/
def aluRm16Imm16 : AluOp → RM Reg16 → Word → Instr
  | .add => .addRm16Imm16 | .or => .orRm16Imm16 | .adc => .adcRm16Imm16 | .sbb => .sbbRm16Imm16
  | .and => .andRm16Imm16 | .sub => .subRm16Imm16 | .xor => .xorRm16Imm16 | .cmp => .cmpRm16Imm16

/-- The instruction of form `82h /n` with operation number n (R266). -/
def aluRm8Imm8Alias : AluOp → RM Reg8 → Byte → Instr
  | .add => .addRm8Imm8Alias | .or => .orRm8Imm8Alias | .adc => .adcRm8Imm8Alias | .sbb => .sbbRm8Imm8Alias
  | .and => .andRm8Imm8Alias | .sub => .subRm8Imm8Alias | .xor => .xorRm8Imm8Alias | .cmp => .cmpRm8Imm8Alias

/-- The instruction of form `83h /n` with operation number n (R266). -/
def aluRm16Imm8 : AluOp → RM Reg16 → Byte → Instr
  | .add => .addRm16Imm8 | .or => .orRm16Imm8 | .adc => .adcRm16Imm8 | .sbb => .sbbRm16Imm8
  | .and => .andRm16Imm8 | .sub => .subRm16Imm8 | .xor => .xorRm16Imm8 | .cmp => .cmpRm16Imm8

/-- The group 2 instruction of opcode `D0h` (R152). -/
def shiftRm8One : ShiftOp → RM Reg8 → Instr
  | .rol => .rolRm8One | .ror => .rorRm8One | .rcl => .rclRm8One | .rcr => .rcrRm8One
  | .shl => .shlRm8One | .shr => .shrRm8One | .sar => .sarRm8One

/-- The group 2 instruction of opcode `D1h` (R152). -/
def shiftRm16One : ShiftOp → RM Reg16 → Instr
  | .rol => .rolRm16One | .ror => .rorRm16One | .rcl => .rclRm16One | .rcr => .rcrRm16One
  | .shl => .shlRm16One | .shr => .shrRm16One | .sar => .sarRm16One

/-- The group 2 instruction of opcode `D2h` (R152). -/
def shiftRm8Cl : ShiftOp → RM Reg8 → Instr
  | .rol => .rolRm8Cl | .ror => .rorRm8Cl | .rcl => .rclRm8Cl | .rcr => .rcrRm8Cl
  | .shl => .shlRm8Cl | .shr => .shrRm8Cl | .sar => .sarRm8Cl

/-- The group 2 instruction of opcode `D3h` (R152). -/
def shiftRm16Cl : ShiftOp → RM Reg16 → Instr
  | .rol => .rolRm16Cl | .ror => .rorRm16Cl | .rcl => .rclRm16Cl | .rcr => .rcrRm16Cl
  | .shl => .shlRm16Cl | .shr => .shrRm16Cl | .sar => .sarRm16Cl

/-- The conditional jump with condition number c, opcode `70h + c` (R369). -/
def jccRel8 (c : BitVec 4) : Byte → Instr :=
  match c.toNat with
  | 0 => .joRel8 | 1 => .jnoRel8 | 2 => .jbRel8 | 3 => .jnbRel8
  | 4 => .jzRel8 | 5 => .jnzRel8 | 6 => .jbeRel8 | 7 => .jnbeRel8
  | 8 => .jsRel8 | 9 => .jnsRel8 | 10 => .jpRel8 | 11 => .jnpRel8
  | 12 => .jlRel8 | 13 => .jnlRel8 | 14 => .jleRel8 | _ => .jnleRel8

/-! ### Operand bytes -/

/-- One byte of the stream. -/
def takeByte : List Byte → Except DecodeError (Byte × List Byte)
  | b :: rest => .ok (b, rest)
  | [] => .error .truncated

/-- Two bytes of the stream as a word, low byte first (R101, R145). -/
def takeWord : List Byte → Except DecodeError (Word × List Byte)
  | lo :: hi :: rest => .ok (mkWord lo hi, rest)
  | _ => .error .truncated

/-- The memory operand of a ModR/M byte with `mod != 3`, with its displacement bytes (R140, R141). -/
def takeMem (m : Byte) (rest : List Byte) : Except DecodeError (Mem × List Byte) :=
  match (modOf m).toNat with
  | 0 =>
    if rmOf m = 6 then (takeWord rest).map fun d => (.direct d.1, d.2)
    else .ok (.based (eaBaseOf (rmOf m)) .none, rest)
  | 1 => (takeByte rest).map fun d => (.based (eaBaseOf (rmOf m)) (.d8 d.1), d.2)
  | _ => (takeWord rest).map fun d => (.based (eaBaseOf (rmOf m)) (.d16 d.1), d.2)

/-- The `r/m` operand of a ModR/M byte: a register when `mod = 3` (R135). -/
def takeRM {ρ : Type} (regOfCode : BitVec 3 → ρ) (m : Byte) (rest : List Byte) :
    Except DecodeError (RM ρ × List Byte) :=
  if modOf m = 3 then .ok (.reg (regOfCode (rmOf m)), rest)
  else (takeMem m rest).map fun d => (.mem d.1, d.2)

/-! ### Layouts: what follows an opcode byte -/

/-- What follows a ModR/M byte whose `reg` field is an opcode extension (R151 to R156). -/
inductive GroupForm where
  | rm8 (f : RM Reg8 → Instr)
  | rm16 (f : RM Reg16 → Instr)
  | mem (f : Mem → Instr)
  | rm8ib (f : RM Reg8 → Byte → Instr)
  | rm16ib (f : RM Reg16 → Byte → Instr)
  | rm16iw (f : RM Reg16 → Word → Instr)

/-- What follows an opcode byte (the ModR/M and trailing columns of R150). -/
inductive Layout where
  | plain (i : Instr)
  | ib (f : Byte → Instr)
  | iw (f : Word → Instr)
  | far (f : Word → Word → Instr)
  | rmReg8 (f : RM Reg8 → Reg8 → Instr)
  | rmReg16 (f : RM Reg16 → Reg16 → Instr)
  | regMem (f : Reg16 → Mem → Instr)
  | esc (high : BitVec 3)
  | group (g : BitVec 3 → Option GroupForm)

/-- The block `00h..3Dh`: form `8n+k` of operation number n (R266). -/
def aluLayout (n : AluOp) (k : Nat) : Layout :=
  match k with
  | 0 => .rmReg8 (aluRm8R8 n)
  | 1 => .rmReg16 (aluRm16R16 n)
  | 2 => .rmReg8 fun rm r => aluR8Rm8 n r rm
  | 3 => .rmReg16 fun rm r => aluR16Rm16 n r rm
  | 4 => .ib (aluAlImm8 n)
  | _ => .iw (aluAxImm16 n)

/-- Opcode `8Ch`: `MOV r/m16, sreg` for segment register numbers 0 to 3 (R155). -/
def movFromSreg (reg : BitVec 3) : Option GroupForm :=
  match reg.toNat with
  | 0 => some (.rm16 .movRm16Es) | 1 => some (.rm16 .movRm16Cs)
  | 2 => some (.rm16 .movRm16Ss) | 3 => some (.rm16 .movRm16Ds)
  | _ => none

/-- Opcode `8Eh`: `MOV sreg, r/m16` for segment register numbers 0, 2 and 3 (R155). -/
def movToSreg (reg : BitVec 3) : Option GroupForm :=
  match reg.toNat with
  | 0 => some (.rm16 .movEsRm16) | 2 => some (.rm16 .movSsRm16) | 3 => some (.rm16 .movDsRm16)
  | _ => none

/-- An opcode of which only `/0` is valid: `8Fh`, `C6h`, `C7h` (R155, R156). -/
def onlyZero (f : GroupForm) (reg : BitVec 3) : Option GroupForm :=
  if reg = 0 then some f else none

/-- Group 3 on bytes, opcode `F6h` (R153). -/
def group3Byte (reg : BitVec 3) : Option GroupForm :=
  match reg.toNat with
  | 0 => some (.rm8ib .testRm8Imm8) | 2 => some (.rm8 .notRm8) | 3 => some (.rm8 .negRm8)
  | 4 => some (.rm8 .mulRm8) | 5 => some (.rm8 .imulRm8) | 6 => some (.rm8 .divRm8) | 7 => some (.rm8 .idivRm8)
  | _ => none

/-- Group 3 on words, opcode `F7h` (R153). -/
def group3Word (reg : BitVec 3) : Option GroupForm :=
  match reg.toNat with
  | 0 => some (.rm16iw .testRm16Imm16) | 2 => some (.rm16 .notRm16) | 3 => some (.rm16 .negRm16)
  | 4 => some (.rm16 .mulRm16) | 5 => some (.rm16 .imulRm16) | 6 => some (.rm16 .divRm16)
  | 7 => some (.rm16 .idivRm16)
  | _ => none

/-- Group 4, opcode `FEh` (R154). -/
def group4 (reg : BitVec 3) : Option GroupForm :=
  match reg.toNat with
  | 0 => some (.rm8 .incRm8) | 1 => some (.rm8 .decRm8)
  | _ => none

/-- Group 5, opcode `FFh` (R154). -/
def group5 (reg : BitVec 3) : Option GroupForm :=
  match reg.toNat with
  | 0 => some (.rm16 .incRm16) | 1 => some (.rm16 .decRm16) | 2 => some (.rm16 .callRm16)
  | 3 => some (.mem .callFarM) | 4 => some (.rm16 .jmpRm16) | 5 => some (.mem .jmpFarM)
  | 6 => some (.rm16 .pushRm16)
  | _ => none

/-- The opcode bytes outside the register-in-opcode blocks and the ALU block, one line each (R150). -/
def opcodeRow (op : Nat) : Option Layout :=
  match op with
  | 0x06 => some (.plain .pushEs)
  | 0x07 => some (.plain .popEs)
  | 0x0E => some (.plain .pushCs)
  | 0x16 => some (.plain .pushSs)
  | 0x17 => some (.plain .popSs)
  | 0x1E => some (.plain .pushDs)
  | 0x1F => some (.plain .popDs)
  | 0x26 => some (.plain .prefixEs)
  | 0x27 => some (.plain .daa)
  | 0x2E => some (.plain .prefixCs)
  | 0x2F => some (.plain .das)
  | 0x36 => some (.plain .prefixSs)
  | 0x37 => some (.plain .aaa)
  | 0x3E => some (.plain .prefixDs)
  | 0x3F => some (.plain .aas)
  | 0x80 => some (.group fun n => some (.rm8ib (aluRm8Imm8 (aluOpOf n))))
  | 0x81 => some (.group fun n => some (.rm16iw (aluRm16Imm16 (aluOpOf n))))
  | 0x82 => some (.group fun n => some (.rm8ib (aluRm8Imm8Alias (aluOpOf n))))
  | 0x83 => some (.group fun n => some (.rm16ib (aluRm16Imm8 (aluOpOf n))))
  | 0x84 => some (.rmReg8 .testRm8R8)
  | 0x85 => some (.rmReg16 .testRm16R16)
  | 0x86 => some (.rmReg8 .xchgRm8R8)
  | 0x87 => some (.rmReg16 .xchgRm16R16)
  | 0x88 => some (.rmReg8 .movRm8R8)
  | 0x89 => some (.rmReg16 .movRm16R16)
  | 0x8A => some (.rmReg8 fun rm r => .movR8Rm8 r rm)
  | 0x8B => some (.rmReg16 fun rm r => .movR16Rm16 r rm)
  | 0x8C => some (.group movFromSreg)
  | 0x8D => some (.regMem .leaR16M)
  | 0x8E => some (.group movToSreg)
  | 0x8F => some (.group (onlyZero (.rm16 .popRm16)))
  | 0x90 => some (.plain .nop)
  | 0x91 => some (.plain .xchgAxCx)
  | 0x92 => some (.plain .xchgAxDx)
  | 0x93 => some (.plain .xchgAxBx)
  | 0x94 => some (.plain .xchgAxSp)
  | 0x95 => some (.plain .xchgAxBp)
  | 0x96 => some (.plain .xchgAxSi)
  | 0x97 => some (.plain .xchgAxDi)
  | 0x98 => some (.plain .cbw)
  | 0x99 => some (.plain .cwd)
  | 0x9A => some (.far .callFarPtr)
  | 0x9B => some (.plain .wait)
  | 0x9C => some (.plain .pushf)
  | 0x9D => some (.plain .popf)
  | 0x9E => some (.plain .sahf)
  | 0x9F => some (.plain .lahf)
  | 0xA0 => some (.iw .movAlMoffs8)
  | 0xA1 => some (.iw .movAxMoffs16)
  | 0xA2 => some (.iw .movMoffs8Al)
  | 0xA3 => some (.iw .movMoffs16Ax)
  | 0xA4 => some (.plain .movsb)
  | 0xA5 => some (.plain .movsw)
  | 0xA6 => some (.plain .cmpsb)
  | 0xA7 => some (.plain .cmpsw)
  | 0xA8 => some (.ib .testAlImm8)
  | 0xA9 => some (.iw .testAxImm16)
  | 0xAA => some (.plain .stosb)
  | 0xAB => some (.plain .stosw)
  | 0xAC => some (.plain .lodsb)
  | 0xAD => some (.plain .lodsw)
  | 0xAE => some (.plain .scasb)
  | 0xAF => some (.plain .scasw)
  | 0xC2 => some (.iw .retImm16)
  | 0xC3 => some (.plain .ret)
  | 0xC4 => some (.regMem .lesR16M)
  | 0xC5 => some (.regMem .ldsR16M)
  | 0xC6 => some (.group (onlyZero (.rm8ib .movRm8Imm8)))
  | 0xC7 => some (.group (onlyZero (.rm16iw .movRm16Imm16)))
  | 0xCA => some (.iw .retfImm16)
  | 0xCB => some (.plain .retf)
  | 0xCC => some (.plain .int3)
  | 0xCD => some (.ib .intImm8)
  | 0xCE => some (.plain .into)
  | 0xCF => some (.plain .iret)
  | 0xD0 => some (.group fun n => (shiftOpOf n).map fun o => .rm8 (shiftRm8One o))
  | 0xD1 => some (.group fun n => (shiftOpOf n).map fun o => .rm16 (shiftRm16One o))
  | 0xD2 => some (.group fun n => (shiftOpOf n).map fun o => .rm8 (shiftRm8Cl o))
  | 0xD3 => some (.group fun n => (shiftOpOf n).map fun o => .rm16 (shiftRm16Cl o))
  | 0xD4 => some (.ib .aamImm8)
  | 0xD5 => some (.ib .aadImm8)
  | 0xD7 => some (.plain .xlat)
  | 0xE0 => some (.ib .loopnzRel8)
  | 0xE1 => some (.ib .loopzRel8)
  | 0xE2 => some (.ib .loopRel8)
  | 0xE3 => some (.ib .jcxzRel8)
  | 0xE4 => some (.ib .inAlImm8)
  | 0xE5 => some (.ib .inAxImm8)
  | 0xE6 => some (.ib .outImm8Al)
  | 0xE7 => some (.ib .outImm8Ax)
  | 0xE8 => some (.iw .callRel16)
  | 0xE9 => some (.iw .jmpRel16)
  | 0xEA => some (.far .jmpFarPtr)
  | 0xEB => some (.ib .jmpRel8)
  | 0xEC => some (.plain .inAlDx)
  | 0xED => some (.plain .inAxDx)
  | 0xEE => some (.plain .outDxAl)
  | 0xEF => some (.plain .outDxAx)
  | 0xF0 => some (.plain .prefixLock)
  | 0xF2 => some (.plain .prefixRepne)
  | 0xF3 => some (.plain .prefixRep)
  | 0xF4 => some (.plain .hlt)
  | 0xF5 => some (.plain .cmc)
  | 0xF6 => some (.group group3Byte)
  | 0xF7 => some (.group group3Word)
  | 0xF8 => some (.plain .clc)
  | 0xF9 => some (.plain .stc)
  | 0xFA => some (.plain .cli)
  | 0xFB => some (.plain .sti)
  | 0xFC => some (.plain .cld)
  | 0xFD => some (.plain .std)
  | 0xFE => some (.group group4)
  | 0xFF => some (.group group5)
  | _ => none

/-- The opcode map (R150): the ALU block by its fields (R266), the register-in-opcode blocks by their low three
bits and the conditional jumps by their low four bits (R133), everything else by `opcodeRow`. -/
def opcodeLayout (op : Byte) : Option Layout :=
  if op < 0x40 ∧ rmOf op < 6 then some (aluLayout (aluOpOf (regOf op)) (rmOf op).toNat)
  else
    match (op.extractLsb' 3 5).toNat with
    | 0x08 => some (.plain (.incR16 (reg16Of (rmOf op))))
    | 0x09 => some (.plain (.decR16 (reg16Of (rmOf op))))
    | 0x0A => some (.plain (.pushR16 (reg16Of (rmOf op))))
    | 0x0B => some (.plain (.popR16 (reg16Of (rmOf op))))
    | 0x0E => some (.ib (jccRel8 (op.extractLsb' 0 4)))
    | 0x0F => some (.ib (jccRel8 (op.extractLsb' 0 4)))
    | 0x16 => some (.ib (.movR8Imm8 (reg8Of (rmOf op))))
    | 0x17 => some (.iw (.movR16Imm16 (reg16Of (rmOf op))))
    | 0x1B => some (.esc (rmOf op))
    | _ => opcodeRow op.toNat

/-- The operand bytes of a group form, after its ModR/M byte `m`: displacement, then immediate (R144, R149). -/
def takeGroup (op m : Byte) (g : GroupForm) (rest : List Byte) : Except DecodeError (Instr × List Byte) :=
  match g with
  | .rm8 f => (takeRM reg8Of m rest).map fun d => (f d.1, d.2)
  | .rm16 f => (takeRM reg16Of m rest).map fun d => (f d.1, d.2)
  | .mem f =>
    if modOf m = 3 then .error (.invalidForm op m) else (takeMem m rest).map fun d => (f d.1, d.2)
  | .rm8ib f => (takeRM reg8Of m rest).bind fun d => (takeByte d.2).map fun e => (f d.1 e.1, e.2)
  | .rm16ib f => (takeRM reg16Of m rest).bind fun d => (takeByte d.2).map fun e => (f d.1 e.1, e.2)
  | .rm16iw f => (takeRM reg16Of m rest).bind fun d => (takeWord d.2).map fun e => (f d.1 e.1, e.2)

/-- The operand bytes of a layout, after the opcode byte `op` (R144). -/
def takeLayout (op : Byte) (l : Layout) (rest : List Byte) : Except DecodeError (Instr × List Byte) :=
  match l with
  | .plain i => .ok (i, rest)
  | .ib f => (takeByte rest).map fun d => (f d.1, d.2)
  | .iw f => (takeWord rest).map fun d => (f d.1, d.2)
  | .far f => (takeWord rest).bind fun d => (takeWord d.2).map fun e => (f d.1 e.1, e.2)
  | .rmReg8 f =>
    (takeByte rest).bind fun m => (takeRM reg8Of m.1 m.2).map fun d => (f d.1 (reg8Of (regOf m.1)), d.2)
  | .rmReg16 f =>
    (takeByte rest).bind fun m => (takeRM reg16Of m.1 m.2).map fun d => (f d.1 (reg16Of (regOf m.1)), d.2)
  | .regMem f =>
    (takeByte rest).bind fun m =>
      if modOf m.1 = 3 then .error (.invalidForm op m.1)
      else (takeMem m.1 m.2).map fun d => (f (reg16Of (regOf m.1)) d.1, d.2)
  | .esc high =>
    (takeByte rest).bind fun m =>
      (takeRM reg16Of m.1 m.2).map fun d => (.escRm (high ++ regOf m.1) d.1, d.2)
  | .group g =>
    (takeByte rest).bind fun m =>
      match g (regOf m.1) with
      | none => .error (.invalidForm op m.1)
      | some form => takeGroup op m.1 form m.2

/-- One instruction, or one prefix byte, from the front of a list of bytes, with the bytes left over; or the name
of what is wrong (R130, R144, R149, R160). -/
def decode : List Byte → Except DecodeError (Instr × List Byte)
  | [] => .error .truncated
  | op :: rest =>
    match opcodeLayout op with
    | none => .error (.invalidOpcode op)
    | some l => takeLayout op l rest

/-! ### The encoder -/

/-- The ModR/M and displacement bytes of a memory operand, with the given `reg` field (R140, R141). -/
def encMem (reg : BitVec 3) : Mem → List Byte
  | .direct d => [modrm 0 reg 6, loByte d, hiByte d]
  | .based b .none => [modrm 0 reg b.code]
  | .based b (.d8 v) => [modrm 1 reg b.code, v]
  | .based b (.d16 v) => [modrm 2 reg b.code, loByte v, hiByte v]

/-- The ModR/M and displacement bytes of an 8-bit `r/m` operand (R135). -/
def encRM8 (reg : BitVec 3) : RM Reg8 → List Byte
  | .reg r => [modrm 3 reg r.code]
  | .mem m => encMem reg m

/-- The ModR/M and displacement bytes of a 16-bit `r/m` operand (R135). -/
def encRM16 (reg : BitVec 3) : RM Reg16 → List Byte
  | .reg r => [modrm 3 reg r.code]
  | .mem m => encMem reg m

/-- The two bytes of a word, low byte first (R101). -/
def encWord (v : Word) : List Byte := [loByte v, hiByte v]

/-- An opcode byte with a register number in its low three bits (R133). -/
def opReg (base : BitVec 5) (n : BitVec 3) : Byte := base ++ n

/-- The bytes of a well-formed instruction, from the match value of its row (R163) and the format of its operands
(R144 to R148). -/
def encode : Instr → List Byte
  | .addRm8R8 rm r => 0x00 :: encRM8 r.code rm
  | .addRm16R16 rm r => 0x01 :: encRM16 r.code rm
  | .addR8Rm8 r rm => 0x02 :: encRM8 r.code rm
  | .addR16Rm16 r rm => 0x03 :: encRM16 r.code rm
  | .addAlImm8 imm => [0x04, imm]
  | .addAxImm16 imm => 0x05 :: encWord imm
  | .pushEs => [0x06]
  | .popEs => [0x07]
  | .orRm8R8 rm r => 0x08 :: encRM8 r.code rm
  | .orRm16R16 rm r => 0x09 :: encRM16 r.code rm
  | .orR8Rm8 r rm => 0x0A :: encRM8 r.code rm
  | .orR16Rm16 r rm => 0x0B :: encRM16 r.code rm
  | .orAlImm8 imm => [0x0C, imm]
  | .orAxImm16 imm => 0x0D :: encWord imm
  | .pushCs => [0x0E]
  | .adcRm8R8 rm r => 0x10 :: encRM8 r.code rm
  | .adcRm16R16 rm r => 0x11 :: encRM16 r.code rm
  | .adcR8Rm8 r rm => 0x12 :: encRM8 r.code rm
  | .adcR16Rm16 r rm => 0x13 :: encRM16 r.code rm
  | .adcAlImm8 imm => [0x14, imm]
  | .adcAxImm16 imm => 0x15 :: encWord imm
  | .pushSs => [0x16]
  | .popSs => [0x17]
  | .sbbRm8R8 rm r => 0x18 :: encRM8 r.code rm
  | .sbbRm16R16 rm r => 0x19 :: encRM16 r.code rm
  | .sbbR8Rm8 r rm => 0x1A :: encRM8 r.code rm
  | .sbbR16Rm16 r rm => 0x1B :: encRM16 r.code rm
  | .sbbAlImm8 imm => [0x1C, imm]
  | .sbbAxImm16 imm => 0x1D :: encWord imm
  | .pushDs => [0x1E]
  | .popDs => [0x1F]
  | .andRm8R8 rm r => 0x20 :: encRM8 r.code rm
  | .andRm16R16 rm r => 0x21 :: encRM16 r.code rm
  | .andR8Rm8 r rm => 0x22 :: encRM8 r.code rm
  | .andR16Rm16 r rm => 0x23 :: encRM16 r.code rm
  | .andAlImm8 imm => [0x24, imm]
  | .andAxImm16 imm => 0x25 :: encWord imm
  | .prefixEs => [0x26]
  | .daa => [0x27]
  | .subRm8R8 rm r => 0x28 :: encRM8 r.code rm
  | .subRm16R16 rm r => 0x29 :: encRM16 r.code rm
  | .subR8Rm8 r rm => 0x2A :: encRM8 r.code rm
  | .subR16Rm16 r rm => 0x2B :: encRM16 r.code rm
  | .subAlImm8 imm => [0x2C, imm]
  | .subAxImm16 imm => 0x2D :: encWord imm
  | .prefixCs => [0x2E]
  | .das => [0x2F]
  | .xorRm8R8 rm r => 0x30 :: encRM8 r.code rm
  | .xorRm16R16 rm r => 0x31 :: encRM16 r.code rm
  | .xorR8Rm8 r rm => 0x32 :: encRM8 r.code rm
  | .xorR16Rm16 r rm => 0x33 :: encRM16 r.code rm
  | .xorAlImm8 imm => [0x34, imm]
  | .xorAxImm16 imm => 0x35 :: encWord imm
  | .prefixSs => [0x36]
  | .aaa => [0x37]
  | .cmpRm8R8 rm r => 0x38 :: encRM8 r.code rm
  | .cmpRm16R16 rm r => 0x39 :: encRM16 r.code rm
  | .cmpR8Rm8 r rm => 0x3A :: encRM8 r.code rm
  | .cmpR16Rm16 r rm => 0x3B :: encRM16 r.code rm
  | .cmpAlImm8 imm => [0x3C, imm]
  | .cmpAxImm16 imm => 0x3D :: encWord imm
  | .prefixDs => [0x3E]
  | .aas => [0x3F]
  | .incR16 r => [opReg 0x08 r.code]
  | .decR16 r => [opReg 0x09 r.code]
  | .pushR16 r => [opReg 0x0A r.code]
  | .popR16 r => [opReg 0x0B r.code]
  | .joRel8 rel => [0x70, rel]
  | .jnoRel8 rel => [0x71, rel]
  | .jbRel8 rel => [0x72, rel]
  | .jnbRel8 rel => [0x73, rel]
  | .jzRel8 rel => [0x74, rel]
  | .jnzRel8 rel => [0x75, rel]
  | .jbeRel8 rel => [0x76, rel]
  | .jnbeRel8 rel => [0x77, rel]
  | .jsRel8 rel => [0x78, rel]
  | .jnsRel8 rel => [0x79, rel]
  | .jpRel8 rel => [0x7A, rel]
  | .jnpRel8 rel => [0x7B, rel]
  | .jlRel8 rel => [0x7C, rel]
  | .jnlRel8 rel => [0x7D, rel]
  | .jleRel8 rel => [0x7E, rel]
  | .jnleRel8 rel => [0x7F, rel]
  | .addRm8Imm8 rm imm => 0x80 :: (encRM8 0 rm ++ [imm])
  | .orRm8Imm8 rm imm => 0x80 :: (encRM8 1 rm ++ [imm])
  | .adcRm8Imm8 rm imm => 0x80 :: (encRM8 2 rm ++ [imm])
  | .sbbRm8Imm8 rm imm => 0x80 :: (encRM8 3 rm ++ [imm])
  | .andRm8Imm8 rm imm => 0x80 :: (encRM8 4 rm ++ [imm])
  | .subRm8Imm8 rm imm => 0x80 :: (encRM8 5 rm ++ [imm])
  | .xorRm8Imm8 rm imm => 0x80 :: (encRM8 6 rm ++ [imm])
  | .cmpRm8Imm8 rm imm => 0x80 :: (encRM8 7 rm ++ [imm])
  | .addRm16Imm16 rm imm => 0x81 :: (encRM16 0 rm ++ encWord imm)
  | .orRm16Imm16 rm imm => 0x81 :: (encRM16 1 rm ++ encWord imm)
  | .adcRm16Imm16 rm imm => 0x81 :: (encRM16 2 rm ++ encWord imm)
  | .sbbRm16Imm16 rm imm => 0x81 :: (encRM16 3 rm ++ encWord imm)
  | .andRm16Imm16 rm imm => 0x81 :: (encRM16 4 rm ++ encWord imm)
  | .subRm16Imm16 rm imm => 0x81 :: (encRM16 5 rm ++ encWord imm)
  | .xorRm16Imm16 rm imm => 0x81 :: (encRM16 6 rm ++ encWord imm)
  | .cmpRm16Imm16 rm imm => 0x81 :: (encRM16 7 rm ++ encWord imm)
  | .addRm8Imm8Alias rm imm => 0x82 :: (encRM8 0 rm ++ [imm])
  | .orRm8Imm8Alias rm imm => 0x82 :: (encRM8 1 rm ++ [imm])
  | .adcRm8Imm8Alias rm imm => 0x82 :: (encRM8 2 rm ++ [imm])
  | .sbbRm8Imm8Alias rm imm => 0x82 :: (encRM8 3 rm ++ [imm])
  | .andRm8Imm8Alias rm imm => 0x82 :: (encRM8 4 rm ++ [imm])
  | .subRm8Imm8Alias rm imm => 0x82 :: (encRM8 5 rm ++ [imm])
  | .xorRm8Imm8Alias rm imm => 0x82 :: (encRM8 6 rm ++ [imm])
  | .cmpRm8Imm8Alias rm imm => 0x82 :: (encRM8 7 rm ++ [imm])
  | .addRm16Imm8 rm imm => 0x83 :: (encRM16 0 rm ++ [imm])
  | .orRm16Imm8 rm imm => 0x83 :: (encRM16 1 rm ++ [imm])
  | .adcRm16Imm8 rm imm => 0x83 :: (encRM16 2 rm ++ [imm])
  | .sbbRm16Imm8 rm imm => 0x83 :: (encRM16 3 rm ++ [imm])
  | .andRm16Imm8 rm imm => 0x83 :: (encRM16 4 rm ++ [imm])
  | .subRm16Imm8 rm imm => 0x83 :: (encRM16 5 rm ++ [imm])
  | .xorRm16Imm8 rm imm => 0x83 :: (encRM16 6 rm ++ [imm])
  | .cmpRm16Imm8 rm imm => 0x83 :: (encRM16 7 rm ++ [imm])
  | .testRm8R8 rm r => 0x84 :: encRM8 r.code rm
  | .testRm16R16 rm r => 0x85 :: encRM16 r.code rm
  | .xchgRm8R8 rm r => 0x86 :: encRM8 r.code rm
  | .xchgRm16R16 rm r => 0x87 :: encRM16 r.code rm
  | .movRm8R8 rm r => 0x88 :: encRM8 r.code rm
  | .movRm16R16 rm r => 0x89 :: encRM16 r.code rm
  | .movR8Rm8 r rm => 0x8A :: encRM8 r.code rm
  | .movR16Rm16 r rm => 0x8B :: encRM16 r.code rm
  | .movRm16Es rm => 0x8C :: encRM16 0 rm
  | .movRm16Cs rm => 0x8C :: encRM16 1 rm
  | .movRm16Ss rm => 0x8C :: encRM16 2 rm
  | .movRm16Ds rm => 0x8C :: encRM16 3 rm
  | .leaR16M r m => 0x8D :: encMem r.code m
  | .movEsRm16 rm => 0x8E :: encRM16 0 rm
  | .movSsRm16 rm => 0x8E :: encRM16 2 rm
  | .movDsRm16 rm => 0x8E :: encRM16 3 rm
  | .popRm16 rm => 0x8F :: encRM16 0 rm
  | .nop => [0x90]
  | .xchgAxCx => [0x91]
  | .xchgAxDx => [0x92]
  | .xchgAxBx => [0x93]
  | .xchgAxSp => [0x94]
  | .xchgAxBp => [0x95]
  | .xchgAxSi => [0x96]
  | .xchgAxDi => [0x97]
  | .cbw => [0x98]
  | .cwd => [0x99]
  | .callFarPtr off seg => 0x9A :: (encWord off ++ encWord seg)
  | .wait => [0x9B]
  | .pushf => [0x9C]
  | .popf => [0x9D]
  | .sahf => [0x9E]
  | .lahf => [0x9F]
  | .movAlMoffs8 off => 0xA0 :: encWord off
  | .movAxMoffs16 off => 0xA1 :: encWord off
  | .movMoffs8Al off => 0xA2 :: encWord off
  | .movMoffs16Ax off => 0xA3 :: encWord off
  | .movsb => [0xA4]
  | .movsw => [0xA5]
  | .cmpsb => [0xA6]
  | .cmpsw => [0xA7]
  | .testAlImm8 imm => [0xA8, imm]
  | .testAxImm16 imm => 0xA9 :: encWord imm
  | .stosb => [0xAA]
  | .stosw => [0xAB]
  | .lodsb => [0xAC]
  | .lodsw => [0xAD]
  | .scasb => [0xAE]
  | .scasw => [0xAF]
  | .movR8Imm8 r imm => [opReg 0x16 r.code, imm]
  | .movR16Imm16 r imm => opReg 0x17 r.code :: encWord imm
  | .retImm16 imm => 0xC2 :: encWord imm
  | .ret => [0xC3]
  | .lesR16M r m => 0xC4 :: encMem r.code m
  | .ldsR16M r m => 0xC5 :: encMem r.code m
  | .movRm8Imm8 rm imm => 0xC6 :: (encRM8 0 rm ++ [imm])
  | .movRm16Imm16 rm imm => 0xC7 :: (encRM16 0 rm ++ encWord imm)
  | .retfImm16 imm => 0xCA :: encWord imm
  | .retf => [0xCB]
  | .int3 => [0xCC]
  | .intImm8 vector => [0xCD, vector]
  | .into => [0xCE]
  | .iret => [0xCF]
  | .rolRm8One rm => 0xD0 :: encRM8 0 rm
  | .rorRm8One rm => 0xD0 :: encRM8 1 rm
  | .rclRm8One rm => 0xD0 :: encRM8 2 rm
  | .rcrRm8One rm => 0xD0 :: encRM8 3 rm
  | .shlRm8One rm => 0xD0 :: encRM8 4 rm
  | .shrRm8One rm => 0xD0 :: encRM8 5 rm
  | .sarRm8One rm => 0xD0 :: encRM8 7 rm
  | .rolRm16One rm => 0xD1 :: encRM16 0 rm
  | .rorRm16One rm => 0xD1 :: encRM16 1 rm
  | .rclRm16One rm => 0xD1 :: encRM16 2 rm
  | .rcrRm16One rm => 0xD1 :: encRM16 3 rm
  | .shlRm16One rm => 0xD1 :: encRM16 4 rm
  | .shrRm16One rm => 0xD1 :: encRM16 5 rm
  | .sarRm16One rm => 0xD1 :: encRM16 7 rm
  | .rolRm8Cl rm => 0xD2 :: encRM8 0 rm
  | .rorRm8Cl rm => 0xD2 :: encRM8 1 rm
  | .rclRm8Cl rm => 0xD2 :: encRM8 2 rm
  | .rcrRm8Cl rm => 0xD2 :: encRM8 3 rm
  | .shlRm8Cl rm => 0xD2 :: encRM8 4 rm
  | .shrRm8Cl rm => 0xD2 :: encRM8 5 rm
  | .sarRm8Cl rm => 0xD2 :: encRM8 7 rm
  | .rolRm16Cl rm => 0xD3 :: encRM16 0 rm
  | .rorRm16Cl rm => 0xD3 :: encRM16 1 rm
  | .rclRm16Cl rm => 0xD3 :: encRM16 2 rm
  | .rcrRm16Cl rm => 0xD3 :: encRM16 3 rm
  | .shlRm16Cl rm => 0xD3 :: encRM16 4 rm
  | .shrRm16Cl rm => 0xD3 :: encRM16 5 rm
  | .sarRm16Cl rm => 0xD3 :: encRM16 7 rm
  | .aamImm8 imm => [0xD4, imm]
  | .aadImm8 imm => [0xD5, imm]
  | .xlat => [0xD7]
  | .escRm op rm => opReg 0x1B (op.extractLsb' 3 3) :: encRM16 (op.extractLsb' 0 3) rm
  | .loopnzRel8 rel => [0xE0, rel]
  | .loopzRel8 rel => [0xE1, rel]
  | .loopRel8 rel => [0xE2, rel]
  | .jcxzRel8 rel => [0xE3, rel]
  | .inAlImm8 port => [0xE4, port]
  | .inAxImm8 port => [0xE5, port]
  | .outImm8Al port => [0xE6, port]
  | .outImm8Ax port => [0xE7, port]
  | .callRel16 rel => 0xE8 :: encWord rel
  | .jmpRel16 rel => 0xE9 :: encWord rel
  | .jmpFarPtr off seg => 0xEA :: (encWord off ++ encWord seg)
  | .jmpRel8 rel => [0xEB, rel]
  | .inAlDx => [0xEC]
  | .inAxDx => [0xED]
  | .outDxAl => [0xEE]
  | .outDxAx => [0xEF]
  | .prefixLock => [0xF0]
  | .prefixRepne => [0xF2]
  | .prefixRep => [0xF3]
  | .hlt => [0xF4]
  | .cmc => [0xF5]
  | .testRm8Imm8 rm imm => 0xF6 :: (encRM8 0 rm ++ [imm])
  | .notRm8 rm => 0xF6 :: encRM8 2 rm
  | .negRm8 rm => 0xF6 :: encRM8 3 rm
  | .mulRm8 rm => 0xF6 :: encRM8 4 rm
  | .imulRm8 rm => 0xF6 :: encRM8 5 rm
  | .divRm8 rm => 0xF6 :: encRM8 6 rm
  | .idivRm8 rm => 0xF6 :: encRM8 7 rm
  | .testRm16Imm16 rm imm => 0xF7 :: (encRM16 0 rm ++ encWord imm)
  | .notRm16 rm => 0xF7 :: encRM16 2 rm
  | .negRm16 rm => 0xF7 :: encRM16 3 rm
  | .mulRm16 rm => 0xF7 :: encRM16 4 rm
  | .imulRm16 rm => 0xF7 :: encRM16 5 rm
  | .divRm16 rm => 0xF7 :: encRM16 6 rm
  | .idivRm16 rm => 0xF7 :: encRM16 7 rm
  | .clc => [0xF8]
  | .stc => [0xF9]
  | .cli => [0xFA]
  | .sti => [0xFB]
  | .cld => [0xFC]
  | .std => [0xFD]
  | .incRm8 rm => 0xFE :: encRM8 0 rm
  | .decRm8 rm => 0xFE :: encRM8 1 rm
  | .incRm16 rm => 0xFF :: encRM16 0 rm
  | .decRm16 rm => 0xFF :: encRM16 1 rm
  | .callRm16 rm => 0xFF :: encRM16 2 rm
  | .callFarM m => 0xFF :: encMem 3 m
  | .jmpRm16 rm => 0xFF :: encRM16 4 rm
  | .jmpFarM m => 0xFF :: encMem 5 m
  | .pushRm16 rm => 0xFF :: encRM16 6 rm

/-! ### Prefixes, and the numbering of spec/opcode_table.json -/

/-- The seven prefix bytes (R131), which are never opcodes. -/
def Instr.isPrefix : Instr → Bool
  | .prefixEs | .prefixCs | .prefixSs | .prefixDs | .prefixLock | .prefixRepne | .prefixRep => true
  | _ => false

/-- The number of bytes of the longest instruction without its prefixes (R130). -/
def maxLength : Nat := 6

/-- The bytes of an instruction numbered as spec/opcode_table.json numbers its bits (R163): the key
`(opcode << 8) | next_byte` is bits 15 to 0, so the opcode is `w[15:8]` and the second byte `w[7:0]`; further
bytes count on from bit 16. A row of one byte (`nbits` at most 8) is its opcode alone. -/
def tableBytes (nbits w : Nat) : List Byte :=
  if nbits ≤ 8 then
    [BitVec.ofNat 8 w, 0, 0, 0, 0, 0]
  else
    [BitVec.ofNat 8 (w / 2 ^ 8), BitVec.ofNat 8 w, BitVec.ofNat 8 (w / 2 ^ 16), BitVec.ofNat 8 (w / 2 ^ 24),
      BitVec.ofNat 8 (w / 2 ^ 32), BitVec.ofNat 8 (w / 2 ^ 40)]

/-- The instruction the decoder reads from an instruction of the table whose bits are `w`. -/
def decodeTableWord (nbits w : Nat) : Option Instr :=
  match decode (tableBytes nbits w) with
  | .ok (i, _) => some i
  | .error _ => none

end Sys2Proof
end

