-- ==== Sys2Proof/Config.lean ====
section
/-! DEFINITION. What is fixed for a machine and is not its state (00_scope.md R8, 10_state.md R54): the named
parameters of the spec at the values the spec decides, and, as constants without a body, the values and choices
the spec leaves open. Nothing can be proved of the value of an `opaque` constant, so a theorem holds for every
value of it. -/

namespace Sys2Proof

/-- An RGB triple (61_cga.md R491). -/
structure Rgb where
  r : Byte
  g : Byte
  b : Byte
deriving DecidableEq, Repr

/-- One thing that happens to the platform's own devices, the ones the block does not describe (20_memory.md R84, R88,
R93, R105; 00_scope.md R10, R11): a byte operation on the device with a number, or a `step(cycles)` or a `reset()` of
them all. -/
inductive DeviceEvent where
  | read (dev : Nat) (a : Addr)
  | write (dev : Nat) (a : Addr) (v : Byte)
  | portIn (dev : Nat) (p : Word)
  | portOut (dev : Nat) (p : Word) (v : Byte)
  | step (cycles : Nat)
  | reset
deriving DecidableEq, Repr

/-- `V20_SUPPORT` (R9, D2): only `false` is specified. -/
def Config.v20Support : Bool := false

/-- `DEBUGGER_PRESENT` (R401, D42). -/
def Config.debuggerPresent : Bool := false

/-- `FLAGS_FIXED_BITS`: the bits of the FLAGS image that are no flag (R40, D6). -/
def Config.flagsFixedBits : Word := 0xF002

/-- `PIC_BASE_PORT`: the PIC's command port; the data port is the next one (R431, D28). -/
def Config.picBasePort : Word := 0x20

/-- `SCANLINE_PERIOD_NS` (R471, D37). -/
def Config.scanlinePeriodNs : Nat := 31469

/-- `PALETTE16`: the sixteen colours, index = IRGB number (R491, D39). -/
def Config.palette16 (i : BitVec 4) : Rgb :=
  match i.toNat with
  | 0 => ⟨0x00, 0x00, 0x00⟩ | 1 => ⟨0x00, 0x00, 0xAA⟩ | 2 => ⟨0x00, 0xAA, 0x00⟩ | 3 => ⟨0x00, 0xAA, 0xAA⟩
  | 4 => ⟨0xAA, 0x00, 0x00⟩ | 5 => ⟨0xAA, 0x00, 0xAA⟩ | 6 => ⟨0xAA, 0x55, 0x00⟩ | 7 => ⟨0xAA, 0xAA, 0xAA⟩
  | 8 => ⟨0x55, 0x55, 0x55⟩ | 9 => ⟨0x55, 0x55, 0xFF⟩ | 10 => ⟨0x55, 0xFF, 0x55⟩ | 11 => ⟨0x55, 0xFF, 0xFF⟩
  | 12 => ⟨0xFF, 0x55, 0x55⟩ | 13 => ⟨0xFF, 0x55, 0xFF⟩ | 14 => ⟨0xFF, 0xFF, 0x55⟩ | _ => ⟨0xFF, 0xFF, 0xFF⟩

/-- `FONT8X8`: line `l` (top first) of glyph `c`, bit 7 the leftmost pixel; its contents are not in the spec
(R485, N9). -/
opaque Config.font8x8 : Byte → BitVec 3 → Byte

/-- The flags that an instruction leaves undefined (`UNDEF`, R533, U1, D19): the n-th draw of the run, one bit for
each flag at its place in the FLAGS image. -/
opaque Config.freeFlags : Nat → Word

/-- The cycle count of the n-th step of the run, less one, so that the count is positive (`CYCLES`, R421, D41). -/
opaque Config.cyclesLessOne : Nat → Nat

/-- What a RAM byte (or a ROM byte outside the image) that nothing has written holds: unspecified, fixed per
address (R53, U8, D34). -/
opaque Config.unwrittenRam : Nat → Byte

/-- What a cell of the CGA's video memory that nothing has written holds (R475, U8). -/
opaque Config.unwrittenVram : Nat → Byte

/-- What the output surface holds before the first render (R475, U20). -/
opaque Config.unwrittenSurface : Nat → Byte

/-- What a memory device of the platform gives for a read, after all that has happened to the platform's devices
(newest first): such a device is a parameter of the block (R10, R84, R88). -/
opaque Config.deviceRead : List DeviceEvent → Nat → Addr → Byte

/-- What an IO device of the platform gives for a read of a port, after all that has happened to the platform's devices
(newest first; R10, R93, R98). -/
opaque Config.deviceIn : List DeviceEvent → Nat → Word → Byte

/-- How many moments pass between the n-th moment at which the render task ticks and the one before it. Any sequence of
ticks that never ends is one of these (R480, U16, D40). -/
opaque Config.tickGap : Nat → Nat

/-- The blink phase of the tick at the n-th moment at which the render task ticks (R480, N11). -/
opaque Config.tickBlink : Nat → Bool

/-- The blink phases of further ticks at that same moment; there may be none (R480). -/
opaque Config.moreTicks : Nat → List Bool

/-- How many turns pass in which the host's clock stands still before it moves, drawn at the n-th turn. Any sequence of
times without a last moment is one of these (R471, U16, D37). -/
opaque Config.timeGap : Nat → Nat

/-- The nanoseconds, less one, by which the host's clock moves at the n-th turn, when it moves (R471, D37). -/
opaque Config.elapsedLessOne : Nat → Nat

/-- The interrupt requests the host raises before the processor's step of the n-th turn (R12, R417, R436). -/
opaque Config.hostIrqs : Nat → List (Fin 8)

/-- `SINGLE_STEP_TRAP` (R412, D20), which the spec leaves open: `true` is `after_each_instruction`, `false` is
`none`. -/
opaque Config.singleStepTrap : Bool

/-- `IDIV_MIN_QUOTIENT` (R257, D18, U7): `true` when the smallest quotient of a signed division is `-2^(w-1)`,
`false` when it is `-(2^(w-1) - 1)`. -/
opaque Config.idivMinQuotientFits : Bool

end Sys2Proof
end

