-- ==== Sys2Proof/Machine/State.lean ====
section
/-! DEFINITION. The state of the block (10_state.md): the processor, the two bus owner tables, the PIC, the CGA, the
hook table, and the model's own bookkeeping; the reasons a step can stop; and the state after reset. -/

namespace Sys2Proof.Machine

/-- Bytes by address in one canonical form: addresses strictly rising. An address that is not listed holds no value
(R53); what a read of it gives is one definition per device, in Machine/Ops.lean and Machine/Cga.lean. -/
abbrev Memory := List Host.Cell

/-- The eight 16-bit general registers (R31). -/
structure Regs where
  ax : Word
  cx : Word
  dx : Word
  bx : Word
  sp : Word
  bp : Word
  si : Word
  di : Word
deriving DecidableEq, Repr

/-- The nine flags (R38): `cf`, `pf`, `af`, `zf`, `sf`, `tf`, `ifl` (IF), `df`, `ofl` (OF). -/
structure Flags where
  cf : Bool
  pf : Bool
  af : Bool
  zf : Bool
  sf : Bool
  tf : Bool
  ifl : Bool
  df : Bool
  ofl : Bool
deriving DecidableEq, Repr

/-- What the prefix phase of a step has gathered, with the instruction start (R43, R44, R132). -/
structure Pending where
  ovr : Option SReg
  rep : Option Rep
  lock : Bool
  start : Word
deriving DecidableEq, Repr

/-- No prefix pending; the value between steps (R43, R44). -/
def noPending : Pending := ⟨none, none, false, 0⟩

/-- Where the PIC is in its initialisation sequence (R47). -/
inductive PicInit where
  | ready | wantIcw2 | wantIcw3 | wantIcw4
deriving DecidableEq, Repr

/-- The interrupt controller (R47, R430). -/
structure Pic where
  irr : Byte
  isr : Byte
  imr : Byte
  base : Byte
  init : PicInit
  icw1 : Byte
  icw4 : Byte
  readIsr : Bool
deriving DecidableEq, Repr

/-- The CGA adapter (R48, R460, R480). `vram` is keyed by cell index 0 to 3FFFh; `surface` is empty until the first
render; `presented` is the background colour of the last `render_graphics` call (R493). `tickWait` and `ticks` are the
render task's own clock and the model's own fields: how many moments pass before its next tick, and at how many moments
it has ticked (R480). -/
structure Cga where
  vram : Memory
  crtIndex : Byte
  crtReg : Vector Byte 256
  modeCtrl : Byte
  colorCtrl : Byte
  status : Byte
  cursorPos : Word
  cursorVisible : Bool
  lastScanlineNs : Nat
  scanline : Fin 525
  dirty : Bool
  surface : List Byte
  cycleCounter : Nat
  blinkPhase : Bool
  lastBlinkPhase : Bool
  presented : Option Rgb
  tickWait : Nat
  ticks : Nat
deriving DecidableEq, Repr

/-- The memory devices: the kinds the spec gives a behaviour to (R87, R461), and any other device of the platform, by
number (R10, R84). The open bus is the absence of one. -/
inductive MemDevice where
  | ram | rom | cga
  | other (dev : Nat)
deriving DecidableEq, Repr

/-- The IO devices: those of the block (R97), and any other device of the platform, by number (R10, R93). -/
inductive IoDevice where
  | pic | cga
  | other (dev : Nat)
deriving DecidableEq, Repr

/-- An inclusive range of linear addresses and the device installed on it (R84, R86). -/
structure MemRegion where
  first : Nat
  last : Nat
  dev : MemDevice
deriving DecidableEq, Repr

/-- An inclusive range of ports and the device installed on it (R93, R96). -/
structure IoRegion where
  first : Nat
  last : Nat
  dev : IoDevice
deriving DecidableEq, Repr

/-- What the host does at one turn of its loop (R11, R12): the request lines raised before the processor's step
(R436), and the time that has passed when the CGA's step is called after it (R471). -/
structure HostInput where
  irqs : List (Fin 8)
  elapsedNs : Nat
deriving DecidableEq, Repr

/-- The state of the block. -/
structure State where
  /-- general registers (R31) -/
  regs : Regs
  /-- code segment (R36); with `ip` the program counter (R34) -/
  cs : Word
  /-- data segment (R36) -/
  ds : Word
  /-- extra segment (R36) -/
  es : Word
  /-- stack segment (R36) -/
  ss : Word
  /-- instruction pointer (R34) -/
  ip : Word
  /-- the nine flags (R38) -/
  flags : Flags
  /-- `Halt` (R41) -/
  halt : Bool
  /-- `Debug` (R42) -/
  debug : Bool
  /-- pending prefixes and instruction start (R43, R44) -/
  pend : Pending
  /-- the bytes of the RAM and ROM devices (R87) -/
  mem : Memory
  /-- `mem_owner` (R49) -/
  memMap : List MemRegion
  /-- `io_owner` (R49) -/
  ioMap : List IoRegion
  /-- the interrupt controller (R47) -/
  pic : Pic
  /-- the video adapter (R48) -/
  cga : Cga
  /-- the vectors for which `INT_HOOKS` has a handler (R50) -/
  hooks : List Byte
  /-- the host's clock as the CGA last saw it (R471) -/
  now : Nat
  /-- what has happened to the platform's own devices, newest first (R10, R84, R93; the model's own record) -/
  devices : List DeviceEvent
  /-- the host's coming turns that are known, oldest first; where none is listed the turn is a draw (the model's own) -/
  inputs : List HostInput
  /-- how many turns there have been: the number of the draw of a turn (the model's own) -/
  turns : Nat
  /-- how many drawn turns pass before one in which the host's clock moves (R471; the model's own) -/
  timeWait : Nat
  /-- how many free values the run has drawn (the model's own) -/
  draws : Nat
  /-- the cycle count the last step returned with its outcome (R12, R400, R421; the model's own record) -/
  cycles : Nat
  /-- the last step returned `CpuHalt`: the run is over (R409; the model's own) -/
  ended : Bool
deriving DecidableEq, Repr

/-- Why the machine stops with a fault. -/
inductive Fault where
  /-- Raised by a step whose bytes are an invalid encoding of R160 (R410: "the model treats the outcome as a fault").
  Safe: the machine stops. -/
  | invalidOpcode
  /-- Raised by a step that has fetched 65536 prefix bytes (R132, R526: the step never ends). Safe: a stuck state. -/
  | prefixRunaway
deriving DecidableEq, Repr

/-- Why a step has no meaning. -/
inductive Refusal where
  /-- Raised by an arm of `exec` whose instruction has no meaning yet. Safe: nothing is claimed of it. -/
  | notModelled (mnemonic : String)
  /-- Raised by a step after the one that returned `CpuHalt` (R409, D23). Safe. -/
  | afterCpuHalt
  /-- Raised by a step when the debugger is armed and `Debug` is set (R401); cannot arise while
  `Config.debuggerPresent` is `false`. Safe. -/
  | debugBreak
  /-- Raised by every step when `Config.v20Support` is `true` (R9). Safe. -/
  | v20Support
deriving DecidableEq, Repr

/-- The outcome of an instruction or a step. -/
abbrev Result := Host.Outcome State Fault Refusal

/-- The memory devices after reset: RAM everywhere outside the CGA's range, as the spec's test vectors have it
(95_test_vectors.md Part 2), and the CGA on B8000h to BFFFFh (R461). -/
def defaultMemMap : List MemRegion :=
  [⟨0x00000, 0xB7FFF, .ram⟩, ⟨0xB8000, 0xBFFFF, .cga⟩, ⟨0xC0000, 0xFFFFF, .ram⟩]

/-- The IO devices after reset: the PIC on ports 20h and 21h (R431), the CGA on 3D0h to 3DFh (R463). -/
def defaultIoMap : List IoRegion :=
  [⟨0x20, 0x21, .pic⟩, ⟨0x3D0, 0x3DF, .cga⟩]

/-- The machine right after reset (R51, R440, R474, R511), with nothing written to any memory; the platform's devices have
had their `reset()` too, so that a second one changes nothing (R510, R512). -/
def State.reset : State where
  regs := ⟨0, 0, 0, 0, 0, 0, 0, 0⟩
  cs := 0xFFFF
  ds := 0
  es := 0
  ss := 0
  ip := 0
  flags := ⟨false, false, false, false, false, false, false, false, false⟩
  halt := false
  debug := false
  pend := noPending
  mem := []
  memMap := defaultMemMap
  ioMap := defaultIoMap
  pic := ⟨0, 0, 0, 0x08, .ready, 0, 0, false⟩
  cga :=
    { vram := []
      crtIndex := 0
      crtReg := Vector.replicate 256 0
      modeCtrl := 0
      colorCtrl := 0
      status := 0
      cursorPos := 0
      cursorVisible := true
      lastScanlineNs := 0
      scanline := 0
      dirty := true
      surface := []
      cycleCounter := 0
      blinkPhase := false
      lastBlinkPhase := false
      presented := none
      tickWait := Config.tickGap 0
      ticks := 0 }
  hooks := []
  now := 0
  devices := [.reset]
  inputs := []
  turns := 0
  timeWait := Config.timeGap 0
  draws := 0
  cycles := 0
  ended := false

end Sys2Proof.Machine
end

