-- ==== Sys2Proof/Machine/Flags.lean ====
section
/-! DEFINITION. The flag functions (00_scope.md R21; 10_state.md R40; 41_arithmetic.md R240, R241;
42_logic_shift_rotate.md R280, R286 to R293) and the results they go with. The argument `u` of a function is
the draw from which it takes the flags the spec leaves undefined, each at its bit of the FLAGS image. -/

namespace Sys2Proof.Machine

/-! ### The FLAGS image (R38, R40) -/

/-- A flag at its place in the FLAGS image. -/
def flagBit (b : Bool) (k : Nat) : Word := (BitVec.ofBool b).setWidth 16 <<< k

/-- `FlagsImage()` (R40). -/
def Flags.image (f : Flags) : Word :=
  Config.flagsFixedBits ||| flagBit f.cf 0 ||| flagBit f.pf 2 ||| flagBit f.af 4 ||| flagBit f.zf 6 |||
    flagBit f.sf 7 ||| flagBit f.tf 8 ||| flagBit f.ifl 9 ||| flagBit f.df 10 ||| flagBit f.ofl 11

/-- `SetFlags(v)`: the nine flags of an image; its other bits are discarded (R40). -/
def flagsOfImage (v : Word) : Flags where
  cf := v.getLsbD 0
  pf := v.getLsbD 2
  af := v.getLsbD 4
  zf := v.getLsbD 6
  sf := v.getLsbD 7
  tf := v.getLsbD 8
  ifl := v.getLsbD 9
  df := v.getLsbD 10
  ofl := v.getLsbD 11

/-! ### Sign, zero and parity (R21) -/

/-- `Parity(res)`: the low byte has an even number of one bits (R21). -/
def parity {w : Nat} (res : BitVec w) : Bool :=
  !(res.getLsbD 0 ^^ res.getLsbD 1 ^^ res.getLsbD 2 ^^ res.getLsbD 3 ^^
    res.getLsbD 4 ^^ res.getLsbD 5 ^^ res.getLsbD 6 ^^ res.getLsbD 7)

/-- `SetSZP_w(res)` (R21). -/
def Flags.setSZP {w : Nat} (f : Flags) (res : BitVec w) : Flags :=
  { f with sf := res.msb, zf := res == 0#w, pf := parity res }

/-! ### Addition and subtraction (R240, R241) -/

/-- The result of `AddFlags_w(a, b, cin)` (R240). -/
def addResult {w : Nat} (a b : BitVec w) (cin : Bool) : BitVec w :=
  BitVec.ofNat w (a.toNat + b.toNat + cin.toNat)

/-- The flags `AddFlags_w(a, b, cin)` writes (R240). -/
def Flags.afterAdd {w : Nat} (f : Flags) (a b : BitVec w) (cin : Bool) : Flags :=
  { f.setSZP (addResult a b cin) with
    cf := decide (2 ^ w ≤ a.toNat + b.toNat + cin.toNat)
    af := (a ^^^ b ^^^ addResult a b cin).getLsbD 4
    ofl := ((a ^^^ addResult a b cin) &&& (b ^^^ addResult a b cin)).msb }

/-- The result of `SubFlags_w(a, b, bin)` (R241). -/
def subResult {w : Nat} (a b : BitVec w) (bin : Bool) : BitVec w :=
  a - b - BitVec.ofNat w bin.toNat

/-- The flags `SubFlags_w(a, b, bin)` writes (R241). -/
def Flags.afterSub {w : Nat} (f : Flags) (a b : BitVec w) (bin : Bool) : Flags :=
  { f.setSZP (subResult a b bin) with
    cf := decide (a.toNat < b.toNat + bin.toNat)
    af := (a ^^^ b ^^^ subResult a b bin).getLsbD 4
    ofl := ((a ^^^ b) &&& (a ^^^ subResult a b bin)).msb }

/-! ### Logic (R280) -/

/-- The flags `LogicFlags_w(res)` writes; `AF` is undefined (R280). -/
def Flags.afterLogic {w : Nat} (f : Flags) (res : BitVec w) (u : Word) : Flags :=
  { f.setSZP res with cf := false, ofl := false, af := u.getLsbD 4 }

/-! ### The eight ALU operations (R243 to R248, R282 to R284) -/

/-- The result of an ALU operation; `cf` is the carry flag before the instruction. -/
def aluResult {w : Nat} (op : AluOp) (a b : BitVec w) (cf : Bool) : BitVec w :=
  match op with
  | .add => addResult a b false
  | .adc => addResult a b cf
  | .sub => subResult a b false
  | .sbb => subResult a b cf
  | .cmp => subResult a b false
  | .and => a &&& b
  | .or => a ||| b
  | .xor => a ^^^ b

/-- The flags after an ALU operation. -/
def Flags.afterAlu {w : Nat} (f : Flags) (op : AluOp) (a b : BitVec w) (u : Word) : Flags :=
  match op with
  | .add => f.afterAdd a b false
  | .adc => f.afterAdd a b f.cf
  | .sub => f.afterSub a b false
  | .sbb => f.afterSub a b f.cf
  | .cmp => f.afterSub a b false
  | .and => f.afterLogic (a &&& b) u
  | .or => f.afterLogic (a ||| b) u
  | .xor => f.afterLogic (a ^^^ b) u

/-- `CMP` writes no operand (R266). -/
def aluWrites : AluOp → Bool
  | .cmp => false
  | _ => true

/-- The logical operations leave `AF` undefined (R280). -/
def aluDraws : AluOp → Bool
  | .and | .or | .xor => true
  | _ => false

/-- `INC`: an addition of 1 that keeps `CF` (R249). -/
def Flags.afterInc {w : Nat} (f : Flags) (a : BitVec w) : Flags :=
  { f.afterAdd a 1#w false with cf := f.cf }

/-- `DEC`: a subtraction of 1 that keeps `CF` (R251). -/
def Flags.afterDec {w : Nat} (f : Flags) (a : BitVec w) : Flags :=
  { f.afterSub a 1#w false with cf := f.cf }

/-! ### Shifts and rotates (R286 to R293) -/

/-- The single-bit step of an operation on the operand and `CF` (R287 to R293). -/
def shiftStep {w : Nat} (op : ShiftOp) (x : BitVec w × Bool) : BitVec w × Bool :=
  match op with
  | .shl => (x.1 <<< 1, x.1.msb)
  | .shr => (x.1 >>> 1, x.1.getLsbD 0)
  | .sar => (x.1.sshiftRight 1, x.1.getLsbD 0)
  | .rol => ((x.1 <<< 1) ||| (BitVec.ofBool x.1.msb).setWidth w, x.1.msb)
  | .ror => ((x.1 >>> 1) ||| ((BitVec.ofBool (x.1.getLsbD 0)).setWidth w <<< (w - 1)), x.1.getLsbD 0)
  | .rcl => ((x.1 <<< 1) ||| (BitVec.ofBool x.2).setWidth w, x.1.msb)
  | .rcr => ((x.1 >>> 1) ||| ((BitVec.ofBool x.2).setWidth w <<< (w - 1)), x.1.getLsbD 0)

/-- The step applied n times (R286). -/
def shiftIter {w : Nat} (op : ShiftOp) : Nat → BitVec w × Bool → BitVec w × Bool
  | 0, x => x
  | n + 1, x => shiftIter op n (shiftStep op x)

/-- `OF` after a single-bit shift or rotate of `v` to `v'` with `CF` after it `c'` (R287 to R293). -/
def shiftOverflow {w : Nat} (op : ShiftOp) (v v' : BitVec w) (c' : Bool) : Bool :=
  match op with
  | .shl | .rol | .rcl => v'.msb ^^ c'
  | .shr => v.msb
  | .sar => false
  | .ror | .rcr => v'.msb ^^ v'.getLsbD (w - 2)

/-- The shifts write `SF`, `ZF`, `PF` and leave `AF` undefined; the rotates write none of the four (R286). -/
def isShift : ShiftOp → Bool
  | .shl | .shr | .sar => true
  | _ => false

/-- The flags after a shift or rotate of `v` by `n` (R286): none written when `n = 0`; `OF` undefined when
`n > 1`. -/
def Flags.afterShift {w : Nat} (f : Flags) (op : ShiftOp) (v : BitVec w) (n : Nat) (u : Word) : Flags :=
  if n = 0 then f
  else
    let r := shiftIter op n (v, f.cf)
    let g := { f with cf := r.2, ofl := if n = 1 then shiftOverflow op v r.1 r.2 else u.getLsbD 11 }
    if isShift op then { g.setSZP r.1 with af := u.getLsbD 4 } else g

/-- Whether the spec leaves a flag undefined: `AF` after a shift, `OF` after a count above 1 (R286). -/
def shiftDraws (op : ShiftOp) (n : Nat) : Bool := decide (n ≠ 0) && (isShift op || decide (n ≠ 1))

/-! ### Multiplication, division and the adjusts (R254 to R263) -/

/-- The flags after `MUL` and `IMUL`: `CF = OF`; `SF`, `ZF`, `AF`, `PF` undefined (R254, R255). -/
def Flags.afterMul (f : Flags) (high : Bool) (u : Word) : Flags :=
  { f with cf := high, ofl := high, sf := u.getLsbD 7, zf := u.getLsbD 6, af := u.getLsbD 4, pf := u.getLsbD 2 }

/-- The flags after a `DIV` or `IDIV` that completes: all six undefined (R256, R257). -/
def Flags.afterDiv (f : Flags) (u : Word) : Flags :=
  { f with
    cf := u.getLsbD 0, pf := u.getLsbD 2, af := u.getLsbD 4, zf := u.getLsbD 6, sf := u.getLsbD 7,
    ofl := u.getLsbD 11 }

/-- The flags after `AAA` and `AAS`: `AF = CF`; `OF`, `SF`, `ZF`, `PF` undefined (R258, R259). -/
def Flags.afterAscii (f : Flags) (adjusted : Bool) (u : Word) : Flags :=
  { f with
    af := adjusted, cf := adjusted, ofl := u.getLsbD 11, sf := u.getLsbD 7, zf := u.getLsbD 6, pf := u.getLsbD 2 }

/-- The flags after `DAA` and `DAS`: `SF`, `ZF`, `PF` of the new `AL`; `OF` undefined (R260, R261). -/
def Flags.afterDecimal (f : Flags) (al : Byte) (af cf : Bool) (u : Word) : Flags :=
  { f.setSZP al with af := af, cf := cf, ofl := u.getLsbD 11 }

/-- The flags after `AAM` and `AAD`: `SF`, `ZF`, `PF` of the new `AL`; `OF`, `AF`, `CF` undefined (R262, R263). -/
def Flags.afterAsciiMul (f : Flags) (al : Byte) (u : Word) : Flags :=
  { f.setSZP al with ofl := u.getLsbD 11, af := u.getLsbD 4, cf := u.getLsbD 0 }

/-! ### Conditions (R369) -/

/-- `cond(c)` for a condition number 0 to 15 (R369). -/
def Flags.cond (f : Flags) (c : BitVec 4) : Bool :=
  let t :=
    match (c.extractLsb' 1 3).toNat with
    | 0 => f.ofl
    | 1 => f.cf
    | 2 => f.zf
    | 3 => f.cf || f.zf
    | 4 => f.sf
    | 5 => f.pf
    | 6 => f.sf ^^ f.ofl
    | _ => (f.sf ^^ f.ofl) || f.zf
  t ^^ c.getLsbD 0

end Sys2Proof.Machine
end

