-- ==== Sys2Proof/Machine/Pic.lean ====
section
/-! DEFINITION. The interrupt controller (60_exceptions.md section 6): its ports, its request inputs, the choice of
the next vector and its acknowledgement. -/

namespace Sys2Proof.Machine

/-- One bit of a byte set or cleared. -/
def putBit (v : Byte) (i : Nat) (b : Bool) : Byte :=
  if b then v ||| (1#8 <<< i) else v &&& ~~~(1#8 <<< i)

/-- The values `reset()` gives the PIC (R440). -/
def picReset : Pic := ⟨0, 0, 0, 0x08, .ready, 0, 0, false⟩

/-- The lowest-numbered set bit among the lines listed. -/
def lowestSet (v : Byte) : List Nat → Option Nat
  | [] => none
  | i :: is => if v.getLsbD i then some i else lowestSet v is

/-- The eight request lines in priority order, line 0 first (R437). -/
def picLines : List Nat := [0, 1, 2, 3, 4, 5, 6, 7]

/-- A write to the command port: ICW1, OCW3 or OCW2 (R432, R435). -/
def Pic.writeCommand (p : Pic) (v : Byte) : Pic :=
  if v.getLsbD 4 then
    { p with icw1 := v, icw4 := 0, imr := 0, isr := 0, irr := 0, readIsr := false, init := .wantIcw2 }
  else if v.getLsbD 3 then
    if v.getLsbD 1 then { p with readIsr := v.getLsbD 0 } else p
  else if v.getLsbD 5 then
    if v.getLsbD 6 then { p with isr := putBit p.isr (v.extractLsb' 0 3).toNat false }
    else
      match lowestSet p.isr picLines with
      | some i => { p with isr := putBit p.isr i false }
      | none => p
  else p

/-- A write to the data port, by where the initialisation sequence stands (R433). -/
def Pic.writeData (p : Pic) (v : Byte) : Pic :=
  match p.init with
  | .wantIcw2 =>
    { p with
      base := v &&& 0xF8
      init := if p.icw1.getLsbD 1 = false then .wantIcw3 else if p.icw1.getLsbD 0 then .wantIcw4 else .ready }
  | .wantIcw3 => { p with init := if p.icw1.getLsbD 0 then .wantIcw4 else .ready }
  | .wantIcw4 => { p with icw4 := v, init := .ready }
  | .ready => { p with imr := v }

/-- A read of the command port (R434). -/
def Pic.readCommand (p : Pic) : Byte := if p.readIsr then p.isr else p.irr

/-- A read of the data port (R434). -/
def Pic.readData (p : Pic) : Byte := p.imr

/-- `raise_irq(i)` (R436). -/
def Pic.raiseIrq (p : Pic) (i : Fin 8) : Pic := { p with irr := putBit p.irr i.val true }

/-- `raise_irq(i)` for each line of a list, in order (R436). -/
def Pic.raiseIrqs (p : Pic) : List (Fin 8) → Pic
  | [] => p
  | i :: is => (p.raiseIrq i).raiseIrqs is

/-- The search of `next_pending` over the lines still to look at (R437). -/
def Pic.scan (p : Pic) : List Nat → Option Byte
  | [] => none
  | i :: is =>
    if p.isr.getLsbD i then none
    else if p.irr.getLsbD i && !p.imr.getLsbD i then some (p.base + BitVec.ofNat 8 i)
    else p.scan is

/-- `next_pending()` (R437). -/
def Pic.nextPending (p : Pic) : Option Byte :=
  match p.init with
  | .ready => p.scan picLines
  | _ => none

/-- `ack(v)`: the vector the processor takes, and the PIC after it; a request that has gone gives the spurious
vector (R438, R439). -/
def Pic.ack (p : Pic) (v : Byte) : Byte × Pic :=
  let i := (v.extractLsb' 0 3).toNat
  if p.irr.getLsbD i then (v, { p with isr := putBit p.isr i true, irr := putBit p.irr i false })
  else (p.base + 7, p)

/-- The PIC's `in(port)` (R431, R434). -/
def Pic.portIn (p : Pic) (port : Word) : Byte :=
  if port = Config.picBasePort then p.readCommand
  else if port = Config.picBasePort + 1 then p.readData
  else 0

/-- The PIC's `out(port, v)` (R431 to R433). -/
def Pic.portOut (p : Pic) (port : Word) (v : Byte) : Pic :=
  if port = Config.picBasePort then p.writeCommand v
  else if port = Config.picBasePort + 1 then p.writeData v
  else p

end Sys2Proof.Machine
end

