-- ==== Sys2Proof/Machine/Memory.lean ====
section
/-! DEFINITION. Lists of cells in canonical form: reading, writing and the form itself. -/

namespace Sys2Proof.Machine

/-- The byte listed at an address; `none` when nothing has been written there. -/
def Memory.get? : Memory → Nat → Option Byte
  | [], _ => none
  | (b, w) :: m, a => if a = b then some w else Memory.get? m a

/-- Write a byte: replace the address's entry, or insert one where its address belongs. -/
def Memory.set : Memory → Nat → Byte → Memory
  | [], a, v => [(a, v)]
  | (b, w) :: m, a, v =>
    if a < b then (a, v) :: (b, w) :: m
    else if a = b then (a, v) :: m
    else (b, w) :: Memory.set m a v

/-- Every listed address is at least `lo` and below `size`, and the addresses rise strictly. -/
def Memory.wfFrom (size lo : Nat) : Memory → Bool
  | [] => true
  | (a, _) :: m => decide (lo ≤ a) && decide (a < size) && Memory.wfFrom size (a + 1) m

/-- The canonical form of the RAM and ROM cells: strictly rising 20-bit addresses. An unlisted address holds no
value, so no entry can equal what an unlisted address holds. -/
def Memory.wf (m : Memory) : Bool := Memory.wfFrom (2 ^ 20) 0 m

/-- The canonical form of the CGA's cells: strictly rising 14-bit indices. -/
def Memory.vramWf (m : Memory) : Bool := Memory.wfFrom (2 ^ 14) 0 m

end Sys2Proof.Machine
end

