-- ==== Sys2Proof/Machine/Cga.lean ====
section
/-! DEFINITION. The bus half of the CGA (61_cga.md sections 1 to 3): the framebuffer mux, the ports and the scanline
counter. The render half is Machine/Render.lean. -/

namespace Sys2Proof.Machine

/-- The framebuffer cell of a linear address: the low 14 bits (R461). -/
def vramIndex (a : Addr) : Nat := (a.extractLsb' 0 14).toNat

/-- A framebuffer cell; one that nothing has written holds an unspecified value (R475). -/
def vramByte (vram : Memory) (i : Nat) : Byte := (vram.get? i).getD (Config.unwrittenVram i)

/-- `read_byte(a)` (R462). -/
def Cga.readByte (c : Cga) (a : Addr) : Byte := vramByte c.vram (vramIndex a)

/-- `write_byte(a, v)` (R462). -/
def Cga.writeByte (c : Cga) (a : Addr) (v : Byte) : Cga :=
  { c with vram := c.vram.set (vramIndex a) v, dirty := true }

/-- The indexed CRT register (R465). -/
def Cga.crtByte (c : Cga) : Byte := c.crtReg[c.crtIndex.toFin]

/-- A write of the indexed CRT register and its side effects (R465, R466). -/
def Cga.writeCrt (c : Cga) (v : Byte) : Cga :=
  let c1 := { c with crtReg := c.crtReg.set c.crtIndex.toFin v }
  if c.crtIndex = 0x0A then { c1 with cursorVisible := !v.getLsbD 5 }
  else if c.crtIndex = 0x0E then { c1 with cursorPos := mkWord (loByte c.cursorPos) v }
  else if c.crtIndex = 0x0F then { c1 with cursorPos := mkWord v (hiByte c.cursorPos) }
  else c1

/-- The CGA's `in(port)`, with the state after it: only the status port has a side effect (R463, R465, R469). -/
def Cga.portIn (c : Cga) (port : Word) : Byte × Cga :=
  match port.toNat with
  | 0x3D1 | 0x3D3 | 0x3D5 | 0x3D7 => (c.crtByte, c)
  | 0x3DA => (c.status, { c with status := c.status &&& 0xFE })
  | _ => (0, c)

/-- The CGA's `out(port, v)` (R463 to R468). -/
def Cga.portOut (c : Cga) (port : Word) (v : Byte) : Cga :=
  match port.toNat with
  | 0x3D0 | 0x3D2 | 0x3D4 | 0x3D6 => { c with crtIndex := v }
  | 0x3D1 | 0x3D3 | 0x3D5 | 0x3D7 => c.writeCrt v
  | 0x3D8 => { c with modeCtrl := v }
  | 0x3D9 => { c with colorCtrl := v }
  | _ => c

/-- One turn of the loop of `step`: one scanline advance (R471, R472). -/
def Cga.scanlineTurn (c : Cga) : Cga :=
  { c with
    lastScanlineNs := c.lastScanlineNs + Config.scanlinePeriodNs
    scanline := c.scanline + 1
    status := (c.status &&& 0xF6) ||| 0x01 ||| (if 479 < (c.scanline + 1).val then 0x08 else 0x00) }

/-- k scanline advances (R471). -/
def Cga.advance (c : Cga) : Nat → Cga
  | 0 => c
  | k + 1 => c.scanlineTurn.advance k

/-- `step(cycles, now_ns)`: the cycle counter, and as many scanline advances as whole periods have passed (R471,
R473). -/
def Cga.step (c : Cga) (cycles now : Nat) : Cga :=
  let d := c.advance ((now - c.lastScanlineNs) / Config.scanlinePeriodNs)
  { c with
    cycleCounter := c.cycleCounter + cycles
    lastScanlineNs := d.lastScanlineNs
    scanline := d.scanline
    status := d.status }

/-- The values `reset()` gives the CGA; the framebuffer, the surface and what was presented stay (R474, R510), and the
render task's clock goes on. -/
def Cga.resetRegs (c : Cga) (now : Nat) : Cga :=
  { c with
    crtIndex := 0
    crtReg := Vector.replicate 256 0
    modeCtrl := 0
    colorCtrl := 0
    status := 0
    cursorPos := 0
    cursorVisible := true
    lastScanlineNs := now
    scanline := 0
    dirty := true
    cycleCounter := 0
    blinkPhase := false
    lastBlinkPhase := false }

end Sys2Proof.Machine
end

