-- ==== Sys2Proof/Machine/Render.lean ====
section
/-! DEFINITION. The render half of the CGA (61_cga.md section 4): the snapshot, the colour of a pixel in each mode,
the output surface, and one tick of the render task. -/

namespace Sys2Proof.Machine

/-- What the render task copies under the lock (R480, R481). -/
structure Snapshot where
  vram : Memory
  modeCtrl : Byte
  colorCtrl : Byte
  cursorPos : Word
  cursorVisible : Bool
deriving DecidableEq, Repr

/-- The snapshot of a CGA state (R481). -/
def Cga.snapshot (c : Cga) : Snapshot := ⟨c.vram, c.modeCtrl, c.colorCtrl, c.cursorPos, c.cursorVisible⟩

/-! ### Text modes (R483 to R487) -/

/-- The number of text columns `C` (R482). -/
def columns (modeCtrl : Byte) : Nat := if modeCtrl.getLsbD 0 then 80 else 40

/-- The cell under a pixel: `n = r * C + c` (R483, R486). -/
def textCell (modeCtrl : Byte) (x y : Nat) : Nat := y / 8 * columns modeCtrl + x / (640 / columns modeCtrl)

/-- The glyph column `g` of a pixel; in 40-column mode each is two pixels wide (R486). -/
def glyphColumn (modeCtrl : Byte) (x : Nat) : Nat :=
  x % (640 / columns modeCtrl) / (640 / columns modeCtrl / 8)

/-- The background index of an attribute byte (R484). -/
def attrBackground (modeCtrl attr : Byte) : BitVec 4 :=
  if modeCtrl.getLsbD 5 then (attr.extractLsb' 4 3).setWidth 4 else attr.extractLsb' 4 4

/-- The cell's glyph is hidden in this blink phase (R484). -/
def blinkHides (modeCtrl attr : Byte) (blink : Bool) : Bool := modeCtrl.getLsbD 5 && attr.getLsbD 7 && blink

/-- The cursor is drawn over line `l` of cell `n` (R487). -/
def cursorOn (p : Snapshot) (blink : Bool) (n l : Nat) : Bool :=
  p.cursorVisible && !blink && decide (p.cursorPos.toNat < 25 * columns p.modeCtrl) &&
    decide (n = p.cursorPos.toNat) && decide (6 ≤ l)

/-- The colour index of a pixel in a text mode (R483, R484, R486, R487). -/
def textPixel (p : Snapshot) (blink : Bool) (x y : Nat) : BitVec 4 :=
  let n := textCell p.modeCtrl x y
  let attr := vramByte p.vram (2 * n + 1)
  let line := Config.font8x8 (vramByte p.vram (2 * n)) (BitVec.ofNat 3 (y % 8))
  let on := line.getLsbD (7 - glyphColumn p.modeCtrl x) && !blinkHides p.modeCtrl attr blink
  if on || cursorOn p blink n (y % 8) then attr.extractLsb' 0 4 else attrBackground p.modeCtrl attr

/-! ### Graphics modes (R488 to R490) -/

/-- The start of a scanline in the interleaved framebuffer (R488). -/
def scanlineBase (y : Nat) : Nat := y / 2 * 80 + y % 2 * 8192

/-- The colour index of a medium-res palette entry (R489). -/
def mediumColour (colorCtrl : Byte) (idx : BitVec 2) : BitVec 4 :=
  if idx = 0 then colorCtrl.extractLsb' 0 4
  else
    BitVec.ofNat 4
      (2 * idx.toNat + (colorCtrl.getLsbD 5).toNat + (if colorCtrl.getLsbD 4 then 8 else 0))

/-- The colour index of a surface pixel in medium-res graphics, each pixel two surface pixels wide (R488). -/
def mediumPixel (p : Snapshot) (x y : Nat) : BitVec 4 :=
  let b := vramByte p.vram (scanlineBase y + x / 2 / 4)
  mediumColour p.colorCtrl (b.extractLsb' (6 - 2 * (x / 2 % 4)) 2)

/-- The colour index of a pixel in high-res graphics: white or black (R490). -/
def highPixel (p : Snapshot) (x y : Nat) : BitVec 4 :=
  if (vramByte p.vram (scanlineBase y + x / 8)).getLsbD (7 - x % 8) then 15 else 0

/-- The colour index of a pixel, by the mode of the snapshot (R482). -/
def pixelIndex (p : Snapshot) (blink : Bool) (x y : Nat) : BitVec 4 :=
  if p.modeCtrl.getLsbD 1 then
    if p.modeCtrl.getLsbD 4 then highPixel p x y else mediumPixel p x y
  else textPixel p blink x y

/-! ### The surface (R492) -/

/-- The colour at (x, y) (R491). -/
def pixelColour (p : Snapshot) (blink : Bool) (x y : Nat) : Rgb := Config.palette16 (pixelIndex p blink x y)

/-- Byte k of the surface: red, green, blue and alpha of each pixel, rows from the top (R492). -/
def surfaceByte (p : Snapshot) (blink : Bool) (k : Nat) : Byte :=
  let c := pixelColour p blink (k / 4 % 640) (k / 4 / 640)
  match k % 4 with
  | 0 => c.r
  | 1 => c.g
  | 2 => c.b
  | _ => 0xFF

/-- The number of bytes of the surface: 640 x 200 x 4 (R492). -/
def surfaceSize : Nat := 512000

/-- `Render(snap, blink_phase)` (R481, R492). -/
def render (p : Snapshot) (blink : Bool) : List Byte := (List.range surfaceSize).map (surfaceByte p blink)

/-- A byte of the surface; before the first render it holds an unspecified value (R475). -/
def Cga.surfaceAt (c : Cga) (k : Nat) : Byte := c.surface.getD k (Config.unwrittenSurface k)

/-- The background colour `render_graphics` is given (R493). -/
def Snapshot.background (p : Snapshot) : Rgb := Config.palette16 (p.colorCtrl.extractLsb' 0 4)

/-- A tick renders when the dirty flag is set or the blink phase changed (R480). -/
def Cga.needsRender (c : Cga) : Bool := c.dirty || c.blinkPhase != c.lastBlinkPhase

/-- One tick of the render task at the blink phase the task's clock gives (R480, R493). -/
def Cga.renderTick (c : Cga) (blink : Bool) : Cga :=
  let c1 := { c with blinkPhase := blink }
  if c1.needsRender then
    { c1 with
      dirty := false
      lastBlinkPhase := blink
      surface := render c1.snapshot blink
      presented := some c1.snapshot.background }
  else c1

/-! ### When the render task ticks (R104, R109, R480, R481, R529) -/

/-- Ticks one after the other. -/
def Cga.renderTicks (c : Cga) : List Bool → Cga
  | [] => c
  | b :: bs => (c.renderTick b).renderTicks bs

/-- The state with what the render task may write, the surface, the dirty flag, the blink phases and what is presented
(R495), taken from another. -/
def Cga.withRender (c d : Cga) : Cga :=
  { c with
    surface := d.surface
    dirty := d.dirty
    blinkPhase := d.blinkPhase
    lastBlinkPhase := d.lastBlinkPhase
    presented := d.presented }

/-- The ticks of a moment at which the render task ticks: one at least, at blink phases it draws (R480, U16). -/
def Cga.ticked (c : Cga) : Cga := c.renderTicks (Config.tickBlink c.ticks :: Config.moreTicks c.ticks)

/-- A moment between two byte operations: the render task ticks when its wait is over, and otherwise waits on. There is
such a moment before every byte operation that can change what it would see, a write of `vram` or of a port of the CGA,
and one at the end of every turn; ticks at any other moment would see the same (R109, R480). -/
def Cga.moment (c : Cga) : Cga :=
  { c.withRender (if c.tickWait = 0 then c.ticked else c) with
    tickWait := if c.tickWait = 0 then Config.tickGap (c.ticks + 1) else c.tickWait - 1
    ticks := if c.tickWait = 0 then c.ticks + 1 else c.ticks }

/-! ### The text fallback (R494) -/

/-- The arguments of `render_text` (R494). -/
structure TextFrame where
  cells : List Byte
  blinkEnabled : Bool
  bgIndex : BitVec 4
  cursorX : Nat
  cursorY : Nat
deriving DecidableEq, Repr

/-- What a headless host is given in place of the surface (R494). -/
def Snapshot.text (p : Snapshot) : TextFrame where
  cells := (List.range 4000).map (vramByte p.vram)
  blinkEnabled := p.modeCtrl.getLsbD 5
  bgIndex := p.colorCtrl.extractLsb' 0 4
  cursorX := p.cursorPos.toNat % 80
  cursorY := p.cursorPos.toNat / 80

end Sys2Proof.Machine
end

