-- ==== Sys2Proof/Machine/Ops.lean ====
section
/-! DEFINITION. The named operations over the buses, the stack, the flags and the free values (00_scope.md R16 to
R19; 20_memory.md), and taking an interrupt and returning from one (60_exceptions.md R404;
44_control_transfer.md R367). -/

namespace Sys2Proof.Machine

/-! ### Addresses (R16, R81) -/

/-- `lin(seg, off)`: segment times 16 plus offset, modulo 2^20 (R81). -/
def lin (seg off : Word) : Addr := (seg.setWidth 20 <<< 4) + off.setWidth 20

/-! ### The platform's own devices (R10, R84, R93, R105) -/

/-- What happens to the platform's devices, put before what has happened to them. -/
def State.note (s : State) (es : List DeviceEvent) : State := { s with devices := es ++ s.devices }

/-! ### The memory bus (R84 to R92) -/

/-- The device that owns a linear address; `none` is the open bus (R84, R85). -/
def memOwner (map : List MemRegion) (a : Addr) : Option MemDevice :=
  (map.find? fun r => decide (r.first ≤ a.toNat) && decide (a.toNat ≤ r.last)).map MemRegion.dev

/-- A byte of a RAM or ROM device; one that nothing has written holds an unspecified value (R53, R87). -/
def ramByte (m : Memory) (a : Addr) : Byte := (m.get? a.toNat).getD (Config.unwrittenRam a.toNat)

/-- The byte `BusRead8(a)` returns (R85, R87, R88). -/
def State.read8 (s : State) (a : Addr) : Byte :=
  match memOwner s.memMap a with
  | some .ram => ramByte s.mem a
  | some .rom => ramByte s.mem a
  | some .cga => s.cga.readByte a
  | some (.other d) => Config.deviceRead s.devices d a
  | none => 0xFF

/-- What `BusRead8(a)` does to the platform's devices: no other memory device has a read side effect (R88, R105). -/
def readEvents (map : List MemRegion) (a : Addr) : List DeviceEvent :=
  match memOwner map a with
  | some (.other d) => [.read d a]
  | some .ram => []
  | some .rom => []
  | some .cga => []
  | none => []

/-- What `MemRead(a, 2)` does to them, newest first (R16, R105). -/
def wordReadEvents (map : List MemRegion) (a : Addr) : List DeviceEvent := readEvents map (a + 1) ++ readEvents map a

/-- The state `BusRead8(a)` leaves (R88, R105). -/
def State.afterRead8 (s : State) (a : Addr) : State := s.note (readEvents s.memMap a)

/-- `BusWrite8(a, v)`: ROM and the open bus ignore it; the render task may tick before a write of `vram` (R85, R87, R89,
R104, R462). -/
def State.write8 (s : State) (a : Addr) (v : Byte) : State :=
  match memOwner s.memMap a with
  | some .ram => { s with mem := s.mem.set a.toNat v }
  | some .cga => { s with cga := s.cga.moment.writeByte a v }
  | some (.other d) => s.note [.write d a v]
  | some .rom => s
  | none => s

/-- The word `MemRead(a, 2)` returns: the low byte at `a`, read first, the high byte at `(a + 1) mod 2^20` (R16, R90,
R91). -/
def State.read16 (s : State) (a : Addr) : Word := mkWord (s.read8 a) ((s.afterRead8 a).read8 (a + 1))

/-- The state `MemRead(a, 2)` leaves (R16, R105). -/
def State.afterRead16 (s : State) (a : Addr) : State := s.note (wordReadEvents s.memMap a)

/-- `MemWrite(a, 2, v)`: the low byte first (R16, R90, R91). -/
def State.write16 (s : State) (a : Addr) (v : Word) : State :=
  (s.write8 a (loByte v)).write8 (a + 1) (hiByte v)

/-! ### The IO bus (R93 to R100) -/

/-- The device that owns a port; `none` is an unmapped port (R93, R94). -/
def ioOwner (map : List IoRegion) (p : Word) : Option IoDevice :=
  (map.find? fun r => decide (r.first ≤ p.toNat) && decide (p.toNat ≤ r.last)).map IoRegion.dev

/-- `PortIn8(p)`, with the state after the device's side effect (R94, R98). -/
def State.portIn8 (s : State) (p : Word) : Byte × State :=
  match ioOwner s.ioMap p with
  | some .pic => (s.pic.portIn p, s)
  | some .cga => ((s.cga.portIn p).1, { s with cga := (s.cga.portIn p).2 })
  | some (.other d) => (Config.deviceIn s.devices d p, s.note [.portIn d p])
  | none => (0, s)

/-- `PortOut8(p, v)`; the render task may tick before a write of a port of the CGA (R94, R99, R104). -/
def State.portOut8 (s : State) (p : Word) (v : Byte) : State :=
  match ioOwner s.ioMap p with
  | some .pic => { s with pic := s.pic.portOut p v }
  | some .cga => { s with cga := s.cga.moment.portOut p v }
  | some (.other d) => s.note [.portOut d p v]
  | none => s

/-- `PortIn(p, 2)`: port p, then port `(p + 1) mod 2^16` (R19, R100). -/
def State.portIn16 (s : State) (p : Word) : Word × State :=
  let lo := s.portIn8 p
  let hi := lo.2.portIn8 (p + 1)
  (mkWord lo.1 hi.1, hi.2)

/-- `PortOut(p, 2, v)`: port p, then port `(p + 1) mod 2^16` (R19, R100). -/
def State.portOut16 (s : State) (p : Word) (v : Word) : State :=
  (s.portOut8 p (loByte v)).portOut8 (p + 1) (hiByte v)

/-! ### Registers -/

/-- `r16[i]` (R31). -/
def Regs.get (x : Regs) : Reg16 → Word
  | .ax => x.ax | .cx => x.cx | .dx => x.dx | .bx => x.bx
  | .sp => x.sp | .bp => x.bp | .si => x.si | .di => x.di

/-- `r16[i] <- v` (R31). -/
def Regs.put (x : Regs) (r : Reg16) (v : Word) : Regs :=
  match r with
  | .ax => { x with ax := v } | .cx => { x with cx := v } | .dx => { x with dx := v } | .bx => { x with bx := v }
  | .sp => { x with sp := v } | .bp => { x with bp := v } | .si => { x with si := v } | .di => { x with di := v }

/-- A 16-bit register (R31). -/
def State.get16 (s : State) (r : Reg16) : Word := s.regs.get r

/-- A 16-bit register written (R31). -/
def State.set16 (s : State) (r : Reg16) (v : Word) : State := { s with regs := s.regs.put r v }

/-- `sreg[i]` (R36). -/
def State.getS (s : State) : SReg → Word
  | .es => s.es | .cs => s.cs | .ss => s.ss | .ds => s.ds

/-- `sreg[i] <- v` (R36). -/
def State.setS (s : State) (r : SReg) (v : Word) : State :=
  match r with
  | .es => { s with es := v } | .cs => { s with cs := v } | .ss => { s with ss := v } | .ds => { s with ds := v }

/-- `IP <- v` (R15). -/
def State.setIp (s : State) (v : Word) : State := { s with ip := v }

/-- `CS <- v` (R15). -/
def State.setCs (s : State) (v : Word) : State := { s with cs := v }

/-- `SP <- v` (R15). -/
def State.setSp (s : State) (v : Word) : State := { s with regs := { s.regs with sp := v } }

/-- The flags written. -/
def State.setFlags (s : State) (f : Flags) : State := { s with flags := f }

/-! ### Free values (R24, R533) -/

/-- The draw from which the next undefined flags are taken (U1). -/
def State.freeFlags (s : State) : Word := Config.freeFlags s.draws

/-- Count a draw, when one was made. -/
def State.drew (s : State) (made : Bool) : State := { s with draws := if made then s.draws + 1 else s.draws }

/-! ### The stack (R18, R114) -/

/-- The linear address of the top of the stack. -/
def State.stackAddr (s : State) : Addr := lin s.ss s.regs.sp

/-- `Push16(v)` (R18). -/
def State.push16 (s : State) (v : Word) : State :=
  let t := s.setSp (s.regs.sp - 2)
  t.write16 t.stackAddr v

/-- The word `Pop16()` returns (R18). -/
def State.top16 (s : State) : Word := s.read16 s.stackAddr

/-- The state `Pop16()` leaves (R18). -/
def State.drop16 (s : State) : State := (s.afterRead16 s.stackAddr).setSp (s.regs.sp + 2)

/-! ### Interrupt entry and return (R404, R405, R367) -/

/-- The linear address of an entry of the interrupt vector table (R405). -/
def ivtAddr (n : Byte) : Addr := n.setWidth 20 <<< 2

/-- `IF <- 0; TF <- 0` (R404). -/
def Flags.masked (f : Flags) : Flags := { f with ifl := false, tf := false }

/-- `Interrupt(n)`, the one way an interrupt or exception is entered: push the FLAGS image, clear `IF` and `TF`, push
`CS` and `IP`, load `CS:IP` from entry n of the vector table, the offset read before the segment (R404). -/
def State.interrupt (s : State) (n : Byte) : State :=
  let s1 := (s.push16 s.flags.image).setFlags s.flags.masked
  let s2 := s1.push16 s1.cs
  let s3 := s2.push16 s2.ip
  let s4 := s3.afterRead16 (ivtAddr n)
  let s5 := s4.afterRead16 (ivtAddr n + 2)
  (s5.setIp (s3.read16 (ivtAddr n))).setCs (s4.read16 (ivtAddr n + 2))

/-- `DivideError()` (R267). -/
def State.divideError (s : State) : State := s.interrupt 0

/-- What `IRET` does: `IP`, `CS` and the flags from the stack, in that order (R367). -/
def State.interruptReturn (s : State) : State :=
  let s1 := s.drop16.setIp s.top16
  let s2 := s1.drop16.setCs s1.top16
  s2.drop16.setFlags (flagsOfImage s2.top16)

/-! ### Writes by the host (R12, R411) -/

/-- One write by the host to a register or to memory (R12: "write registers and memory"). -/
inductive HostWrite where
  | reg (r : Reg16) (v : Word)
  | seg (r : SReg) (v : Word)
  | ip (v : Word)
  | flags (f : Flags)
  | mem (a : Addr) (v : Byte)
deriving DecidableEq, Repr

/-- One host write performed. DESIGN CHOICE (log entry 35), unsafe: the spec says "write registers and memory" and not
how a write of memory is routed, and the model sends it over the memory bus, so that ROM and the open bus drop it and a
write of `vram` sets the dirty flag. -/
def State.hostWrite (s : State) (w : HostWrite) : State :=
  match w with
  | .reg r v => s.set16 r v
  | .seg r v => s.setS r v
  | .ip v => { s with ip := v }
  | .flags f => { s with flags := f }
  | .mem a v => s.write8 a v

/-- The host writes performed in order. -/
def State.hostWrites (s : State) : List HostWrite → State
  | [] => s
  | w :: ws => (s.hostWrite w).hostWrites ws

/-- What the host's handler for a hooked vector writes, given the whole state: host code outside the block, so it is
left open (R411, U17). -/
opaque hookHandler : Byte → State → List HostWrite

/-- A hooked `INT n`: the handler's writes, with `CS`, `IP`, `IF` and `TF` left as they were (R411). -/
def State.runHook (s : State) (n : Byte) : State :=
  let t := s.hostWrites (hookHandler n s)
  { t with cs := s.cs, ip := s.ip, flags := { t.flags with ifl := s.flags.ifl, tf := s.flags.tf } }

end Sys2Proof.Machine
end

