-- ==== Sys2Proof/Machine/Operands.lean ====
section
/-! DEFINITION. The operand forms: registers and their halves (10_state.md R31, R32, R36), effective addresses
(30_encoding.md R140 to R143), `r/m` operands (00_scope.md R22), and the operations on an operand that several
instructions share. -/

namespace Sys2Proof.Machine

/-! ### Halves of registers -/

/-- The 16-bit register that an 8-bit register name is a half of (R32). -/
def container : Reg8 → Reg16
  | .al => .ax | .cl => .cx | .dl => .dx | .bl => .bx
  | .ah => .ax | .ch => .cx | .dh => .dx | .bh => .bx

/-- Whether an 8-bit register name is the high half of its container (R32). -/
def isHigh : Reg8 → Bool
  | .al | .cl | .dl | .bl => false
  | .ah | .ch | .dh | .bh => true

/-- `r8[i]` (R32). -/
def State.get8 (s : State) (r : Reg8) : Byte :=
  if isHigh r then hiByte (s.get16 (container r)) else loByte (s.get16 (container r))

/-- `r8[i] <- v`: the other half of the container stays (R32). -/
def State.set8 (s : State) (r : Reg8) (v : Byte) : State :=
  s.set16 (container r)
    (if isHigh r then mkWord (loByte (s.get16 (container r))) v else mkWord v (hiByte (s.get16 (container r))))

/-! ### Effective addresses (R140 to R143, R148) -/

/-- The register sum of an address form (R140). -/
def State.baseSum (s : State) : EaBase → Word
  | .bxsi => s.regs.bx + s.regs.si
  | .bxdi => s.regs.bx + s.regs.di
  | .bpsi => s.regs.bp + s.regs.si
  | .bpdi => s.regs.bp + s.regs.di
  | .si => s.regs.si
  | .di => s.regs.di
  | .bp => s.regs.bp
  | .bx => s.regs.bx

/-- The value a displacement adds: one byte is sign-extended (R140). -/
def dispValue : Disp → Word
  | .none => 0
  | .d8 v => v.signExtend 16
  | .d16 v => v

/-- `EA`, modulo 2^16 (R140). -/
def State.ea (s : State) : Mem → Word
  | .direct d => d
  | .based b d => s.baseSum b + dispValue d

/-- The default segment of a ModR/M memory operand: `SS` when the address uses `BP` (R142). -/
def defaultSeg : Mem → SReg
  | .direct _ => .ds
  | .based .bpsi _ => .ss
  | .based .bpdi _ => .ss
  | .based .bp _ => .ss
  | .based _ _ => .ds

/-- A default segment, or the pending override in its place (R143). -/
def State.segOr (s : State) (dflt : SReg) : Word := s.getS (s.pend.ovr.getD dflt)

/-- `ESEG` (R143). -/
def State.eseg (s : State) (m : Mem) : Word := s.segOr (defaultSeg m)

/-- The linear address of a ModR/M memory operand: `lin(ESEG, EA)` (R22). -/
def State.memAddr (s : State) (m : Mem) : Addr := lin (s.eseg m) (s.ea m)

/-- The linear address of the second word of a far pointer in memory: offset `(EA + 2) mod 2^16` (D10). -/
def State.memAddr2 (s : State) (m : Mem) : Addr := lin (s.eseg m) (s.ea m + 2)

/-- The linear address of a `moffs` operand (R148). -/
def State.moffsAddr (s : State) (off : Word) : Addr := lin (s.segOr .ds) off

/-! ### Places: a register, or a linear address formed before the instruction writes anything (R140) -/

/-- Where an operand is. -/
inductive Place (ρ : Type) where
  | reg (r : ρ)
  | mem (a : Addr)
deriving DecidableEq, Repr

/-- The place an `r/m` operand names (R22). -/
def State.place {ρ : Type} (s : State) : RM ρ → Place ρ
  | .reg r => .reg r
  | .mem m => .mem (s.memAddr m)

/-- The byte at a place. -/
def State.load8 (s : State) : Place Reg8 → Byte
  | .reg r => s.get8 r
  | .mem a => s.read8 a

/-- What reading the byte at a place does to the platform's devices (R105). -/
def loadEvents8 (map : List MemRegion) : Place Reg8 → List DeviceEvent
  | .reg _ => []
  | .mem a => readEvents map a

/-- The state that reading the byte at a place leaves (R105). -/
def State.afterLoad8 (s : State) (p : Place Reg8) : State := s.note (loadEvents8 s.memMap p)

/-- A byte written to a place. -/
def State.store8 (s : State) (p : Place Reg8) (v : Byte) : State :=
  match p with
  | .reg r => s.set8 r v
  | .mem a => s.write8 a v

/-- The word at a place. -/
def State.load16 (s : State) : Place Reg16 → Word
  | .reg r => s.get16 r
  | .mem a => s.read16 a

/-- What reading the word at a place does to the platform's devices (R105). -/
def loadEvents16 (map : List MemRegion) : Place Reg16 → List DeviceEvent
  | .reg _ => []
  | .mem a => wordReadEvents map a

/-- The state that reading the word at a place leaves (R105). -/
def State.afterLoad16 (s : State) (p : Place Reg16) : State := s.note (loadEvents16 s.memMap p)

/-- A word written to a place. -/
def State.store16 (s : State) (p : Place Reg16) (v : Word) : State :=
  match p with
  | .reg r => s.set16 r v
  | .mem a => s.write16 a v

/-- `RM_8` as a source (R22). -/
def State.rm8 (s : State) (rm : RM Reg8) : Byte := s.load8 (s.place rm)

/-- `RM_16` as a source (R22). -/
def State.rm16 (s : State) (rm : RM Reg16) : Word := s.load16 (s.place rm)

/-- The state that reading `RM_8` leaves (R105). -/
def State.afterRm8 (s : State) (rm : RM Reg8) : State := s.afterLoad8 (s.place rm)

/-- The state that reading `RM_16` leaves (R105). -/
def State.afterRm16 (s : State) (rm : RM Reg16) : State := s.afterLoad16 (s.place rm)

/-- `RM_8 <- v` (R22). -/
def State.setRm8 (s : State) (rm : RM Reg8) (v : Byte) : State := s.store8 (s.place rm) v

/-- `RM_16 <- v` (R22). -/
def State.setRm16 (s : State) (rm : RM Reg16) (v : Word) : State := s.store16 (s.place rm) v

/-! ### Far pointers in memory (R103) -/

/-- The offset of a far pointer in memory, its first word (R103). -/
def State.farOff (s : State) (m : Mem) : Word := s.read16 (s.memAddr m)

/-- The segment of a far pointer in memory, its second word, read after the first (R103, D10). -/
def State.farSeg (s : State) (m : Mem) : Word := (s.afterRead16 (s.memAddr m)).read16 (s.memAddr2 m)

/-- The state that reading a far pointer leaves (R103, R105). -/
def State.afterFar (s : State) (m : Mem) : State := (s.afterRead16 (s.memAddr m)).afterRead16 (s.memAddr2 m)

/-! ### The two-operand ALU forms (R266) -/

/-- The flags of an ALU operation written, with its draw (R266, R280). -/
def State.aluFlags {w : Nat} (s : State) (op : AluOp) (a b : BitVec w) : State :=
  (s.setFlags (s.flags.afterAlu op a b s.freeFlags)).drew (aluDraws op)

/-- `a OP b` with the byte destination `p`, which `CMP` does not write (R266). -/
def State.alu8 (s : State) (op : AluOp) (p : Place Reg8) (a b : Byte) : State :=
  if aluWrites op then (s.aluFlags op a b).store8 p (aluResult op a b s.flags.cf) else s.aluFlags op a b

/-- `a OP b` with the word destination `p`, which `CMP` does not write (R266). -/
def State.alu16 (s : State) (op : AluOp) (p : Place Reg16) (a b : Word) : State :=
  if aluWrites op then (s.aluFlags op a b).store16 p (aluResult op a b s.flags.cf) else s.aluFlags op a b

/-- `OP r/m8, r8` (R266). -/
def State.aluRm8R8 (s : State) (op : AluOp) (rm : RM Reg8) (r : Reg8) : State :=
  (s.afterRm8 rm).alu8 op (s.place rm) (s.rm8 rm) (s.get8 r)

/-- `OP r/m16, r16` (R266). -/
def State.aluRm16R16 (s : State) (op : AluOp) (rm : RM Reg16) (r : Reg16) : State :=
  (s.afterRm16 rm).alu16 op (s.place rm) (s.rm16 rm) (s.get16 r)

/-- `OP r8, r/m8` (R266). -/
def State.aluR8Rm8 (s : State) (op : AluOp) (r : Reg8) (rm : RM Reg8) : State :=
  (s.afterRm8 rm).alu8 op (.reg r) (s.get8 r) (s.rm8 rm)

/-- `OP r16, r/m16` (R266). -/
def State.aluR16Rm16 (s : State) (op : AluOp) (r : Reg16) (rm : RM Reg16) : State :=
  (s.afterRm16 rm).alu16 op (.reg r) (s.get16 r) (s.rm16 rm)

/-- `OP AL, imm8` (R266). -/
def State.aluAlImm8 (s : State) (op : AluOp) (imm : Byte) : State := s.alu8 op (.reg .al) (s.get8 .al) imm

/-- `OP AX, imm16` (R266). -/
def State.aluAxImm16 (s : State) (op : AluOp) (imm : Word) : State := s.alu16 op (.reg .ax) (s.get16 .ax) imm

/-- `OP r/m8, imm8` (R266). -/
def State.aluRm8Imm8 (s : State) (op : AluOp) (rm : RM Reg8) (imm : Byte) : State :=
  (s.afterRm8 rm).alu8 op (s.place rm) (s.rm8 rm) imm

/-- `OP r/m16, imm16` (R266). -/
def State.aluRm16Imm16 (s : State) (op : AluOp) (rm : RM Reg16) (imm : Word) : State :=
  (s.afterRm16 rm).alu16 op (s.place rm) (s.rm16 rm) imm

/-! ### Shifts and rotates of an operand (R286) -/

/-- A shift or rotate of the byte at a place by n; the operand is written back even when n is 0 (R286). -/
def State.shift8 (s : State) (op : ShiftOp) (rm : RM Reg8) (n : Nat) : State :=
  (((s.afterRm8 rm).setFlags (s.flags.afterShift op (s.rm8 rm) n s.freeFlags)).drew (shiftDraws op n)).store8
    (s.place rm) (shiftIter op n (s.rm8 rm, s.flags.cf)).1

/-- A shift or rotate of the word at a place by n; the operand is written back even when n is 0 (R286). -/
def State.shift16 (s : State) (op : ShiftOp) (rm : RM Reg16) (n : Nat) : State :=
  (((s.afterRm16 rm).setFlags (s.flags.afterShift op (s.rm16 rm) n s.freeFlags)).drew (shiftDraws op n)).store16
    (s.place rm) (shiftIter op n (s.rm16 rm, s.flags.cf)).1

/-- The count of the `CL` forms: all eight bits of `CL`, not masked (R286, D15). -/
def State.clCount (s : State) : Nat := (s.get8 .cl).toNat

/-! ### Relative transfers (R146) -/

/-- `IP <- (IP + d) mod 2^16` (R146). -/
def State.jumpBy (s : State) (d : Word) : State := s.setIp (s.ip + d)

/-- A jump by a sign-extended byte, when the condition holds (R146, R369). -/
def State.jumpIf (s : State) (c : Bool) (rel : Byte) : State :=
  if c then s.jumpBy (rel.signExtend 16) else s

end Sys2Proof.Machine
end

