-- ==== Sys2Proof/Machine/Arithmetic.lean ====
section
/-! DEFINITION. Arithmetic (41_arithmetic.md): the ALU forms of ADD, ADC, SUB, SBB and CMP, increment and decrement, NEG,
multiplication, division and the decimal and ASCII adjusts. -/

namespace Sys2Proof.Machine

/-! ### ADD -/

/-- `ADD r/m8, r8` (R244, R266). -/
def execAddRm8R8 (rm : RM Reg8) (r : Reg8) (s : State) : Result := .next (s.aluRm8R8 .add rm r)

/-- `ADD r/m16, r16` (R244, R266). -/
def execAddRm16R16 (rm : RM Reg16) (r : Reg16) (s : State) : Result := .next (s.aluRm16R16 .add rm r)

/-- `ADD r8, r/m8` (R244, R266). -/
def execAddR8Rm8 (r : Reg8) (rm : RM Reg8) (s : State) : Result := .next (s.aluR8Rm8 .add r rm)

/-- `ADD r16, r/m16` (R244, R266). -/
def execAddR16Rm16 (r : Reg16) (rm : RM Reg16) (s : State) : Result := .next (s.aluR16Rm16 .add r rm)

/-- `ADD AL, imm8` (R244, R266). -/
def execAddAlImm8 (imm : Byte) (s : State) : Result := .next (s.aluAlImm8 .add imm)

/-- `ADD AX, imm16` (R244, R266). -/
def execAddAxImm16 (imm : Word) (s : State) : Result := .next (s.aluAxImm16 .add imm)

/-- `ADD r/m8, imm8` (R244, R266). -/
def execAddRm8Imm8 (rm : RM Reg8) (imm : Byte) (s : State) : Result := .next (s.aluRm8Imm8 .add rm imm)

/-- `ADD r/m16, imm16` (R244, R266). -/
def execAddRm16Imm16 (rm : RM Reg16) (imm : Word) (s : State) : Result := .next (s.aluRm16Imm16 .add rm imm)

/-- `ADD r/m8, imm8 (alias of 80h)` (R244, R266, R145). -/
def execAddRm8Imm8Alias (rm : RM Reg8) (imm : Byte) (s : State) : Result := .next (s.aluRm8Imm8 .add rm imm)

/-- `ADD r/m16, imm8 sign-extended` (R244, R266, R145). -/
def execAddRm16Imm8 (rm : RM Reg16) (imm : Byte) (s : State) : Result :=
  .next (s.aluRm16Imm16 .add rm (imm.signExtend 16))

/-! ### ADC -/

/-- `ADC r/m8, r8` (R245, R266). -/
def execAdcRm8R8 (rm : RM Reg8) (r : Reg8) (s : State) : Result := .next (s.aluRm8R8 .adc rm r)

/-- `ADC r/m16, r16` (R245, R266). -/
def execAdcRm16R16 (rm : RM Reg16) (r : Reg16) (s : State) : Result := .next (s.aluRm16R16 .adc rm r)

/-- `ADC r8, r/m8` (R245, R266). -/
def execAdcR8Rm8 (r : Reg8) (rm : RM Reg8) (s : State) : Result := .next (s.aluR8Rm8 .adc r rm)

/-- `ADC r16, r/m16` (R245, R266). -/
def execAdcR16Rm16 (r : Reg16) (rm : RM Reg16) (s : State) : Result := .next (s.aluR16Rm16 .adc r rm)

/-- `ADC AL, imm8` (R245, R266). -/
def execAdcAlImm8 (imm : Byte) (s : State) : Result := .next (s.aluAlImm8 .adc imm)

/-- `ADC AX, imm16` (R245, R266). -/
def execAdcAxImm16 (imm : Word) (s : State) : Result := .next (s.aluAxImm16 .adc imm)

/-- `ADC r/m8, imm8` (R245, R266). -/
def execAdcRm8Imm8 (rm : RM Reg8) (imm : Byte) (s : State) : Result := .next (s.aluRm8Imm8 .adc rm imm)

/-- `ADC r/m16, imm16` (R245, R266). -/
def execAdcRm16Imm16 (rm : RM Reg16) (imm : Word) (s : State) : Result := .next (s.aluRm16Imm16 .adc rm imm)

/-- `ADC r/m8, imm8 (alias of 80h)` (R245, R266, R145). -/
def execAdcRm8Imm8Alias (rm : RM Reg8) (imm : Byte) (s : State) : Result := .next (s.aluRm8Imm8 .adc rm imm)

/-- `ADC r/m16, imm8 sign-extended` (R245, R266, R145). -/
def execAdcRm16Imm8 (rm : RM Reg16) (imm : Byte) (s : State) : Result :=
  .next (s.aluRm16Imm16 .adc rm (imm.signExtend 16))

/-! ### SUB -/

/-- `SUB r/m8, r8` (R246, R266). -/
def execSubRm8R8 (rm : RM Reg8) (r : Reg8) (s : State) : Result := .next (s.aluRm8R8 .sub rm r)

/-- `SUB r/m16, r16` (R246, R266). -/
def execSubRm16R16 (rm : RM Reg16) (r : Reg16) (s : State) : Result := .next (s.aluRm16R16 .sub rm r)

/-- `SUB r8, r/m8` (R246, R266). -/
def execSubR8Rm8 (r : Reg8) (rm : RM Reg8) (s : State) : Result := .next (s.aluR8Rm8 .sub r rm)

/-- `SUB r16, r/m16` (R246, R266). -/
def execSubR16Rm16 (r : Reg16) (rm : RM Reg16) (s : State) : Result := .next (s.aluR16Rm16 .sub r rm)

/-- `SUB AL, imm8` (R246, R266). -/
def execSubAlImm8 (imm : Byte) (s : State) : Result := .next (s.aluAlImm8 .sub imm)

/-- `SUB AX, imm16` (R246, R266). -/
def execSubAxImm16 (imm : Word) (s : State) : Result := .next (s.aluAxImm16 .sub imm)

/-- `SUB r/m8, imm8` (R246, R266). -/
def execSubRm8Imm8 (rm : RM Reg8) (imm : Byte) (s : State) : Result := .next (s.aluRm8Imm8 .sub rm imm)

/-- `SUB r/m16, imm16` (R246, R266). -/
def execSubRm16Imm16 (rm : RM Reg16) (imm : Word) (s : State) : Result := .next (s.aluRm16Imm16 .sub rm imm)

/-- `SUB r/m8, imm8 (alias of 80h)` (R246, R266, R145). -/
def execSubRm8Imm8Alias (rm : RM Reg8) (imm : Byte) (s : State) : Result := .next (s.aluRm8Imm8 .sub rm imm)

/-- `SUB r/m16, imm8 sign-extended` (R246, R266, R145). -/
def execSubRm16Imm8 (rm : RM Reg16) (imm : Byte) (s : State) : Result :=
  .next (s.aluRm16Imm16 .sub rm (imm.signExtend 16))

/-! ### SBB -/

/-- `SBB r/m8, r8` (R247, R266). -/
def execSbbRm8R8 (rm : RM Reg8) (r : Reg8) (s : State) : Result := .next (s.aluRm8R8 .sbb rm r)

/-- `SBB r/m16, r16` (R247, R266). -/
def execSbbRm16R16 (rm : RM Reg16) (r : Reg16) (s : State) : Result := .next (s.aluRm16R16 .sbb rm r)

/-- `SBB r8, r/m8` (R247, R266). -/
def execSbbR8Rm8 (r : Reg8) (rm : RM Reg8) (s : State) : Result := .next (s.aluR8Rm8 .sbb r rm)

/-- `SBB r16, r/m16` (R247, R266). -/
def execSbbR16Rm16 (r : Reg16) (rm : RM Reg16) (s : State) : Result := .next (s.aluR16Rm16 .sbb r rm)

/-- `SBB AL, imm8` (R247, R266). -/
def execSbbAlImm8 (imm : Byte) (s : State) : Result := .next (s.aluAlImm8 .sbb imm)

/-- `SBB AX, imm16` (R247, R266). -/
def execSbbAxImm16 (imm : Word) (s : State) : Result := .next (s.aluAxImm16 .sbb imm)

/-- `SBB r/m8, imm8` (R247, R266). -/
def execSbbRm8Imm8 (rm : RM Reg8) (imm : Byte) (s : State) : Result := .next (s.aluRm8Imm8 .sbb rm imm)

/-- `SBB r/m16, imm16` (R247, R266). -/
def execSbbRm16Imm16 (rm : RM Reg16) (imm : Word) (s : State) : Result := .next (s.aluRm16Imm16 .sbb rm imm)

/-- `SBB r/m8, imm8 (alias of 80h)` (R247, R266, R145). -/
def execSbbRm8Imm8Alias (rm : RM Reg8) (imm : Byte) (s : State) : Result := .next (s.aluRm8Imm8 .sbb rm imm)

/-- `SBB r/m16, imm8 sign-extended` (R247, R266, R145). -/
def execSbbRm16Imm8 (rm : RM Reg16) (imm : Byte) (s : State) : Result :=
  .next (s.aluRm16Imm16 .sbb rm (imm.signExtend 16))

/-! ### CMP -/

/-- `CMP r/m8, r8` (R248, R266). -/
def execCmpRm8R8 (rm : RM Reg8) (r : Reg8) (s : State) : Result := .next (s.aluRm8R8 .cmp rm r)

/-- `CMP r/m16, r16` (R248, R266). -/
def execCmpRm16R16 (rm : RM Reg16) (r : Reg16) (s : State) : Result := .next (s.aluRm16R16 .cmp rm r)

/-- `CMP r8, r/m8` (R248, R266). -/
def execCmpR8Rm8 (r : Reg8) (rm : RM Reg8) (s : State) : Result := .next (s.aluR8Rm8 .cmp r rm)

/-- `CMP r16, r/m16` (R248, R266). -/
def execCmpR16Rm16 (r : Reg16) (rm : RM Reg16) (s : State) : Result := .next (s.aluR16Rm16 .cmp r rm)

/-- `CMP AL, imm8` (R248, R266). -/
def execCmpAlImm8 (imm : Byte) (s : State) : Result := .next (s.aluAlImm8 .cmp imm)

/-- `CMP AX, imm16` (R248, R266). -/
def execCmpAxImm16 (imm : Word) (s : State) : Result := .next (s.aluAxImm16 .cmp imm)

/-- `CMP r/m8, imm8` (R248, R266). -/
def execCmpRm8Imm8 (rm : RM Reg8) (imm : Byte) (s : State) : Result := .next (s.aluRm8Imm8 .cmp rm imm)

/-- `CMP r/m16, imm16` (R248, R266). -/
def execCmpRm16Imm16 (rm : RM Reg16) (imm : Word) (s : State) : Result := .next (s.aluRm16Imm16 .cmp rm imm)

/-- `CMP r/m8, imm8 (alias of 80h)` (R248, R266, R145). -/
def execCmpRm8Imm8Alias (rm : RM Reg8) (imm : Byte) (s : State) : Result := .next (s.aluRm8Imm8 .cmp rm imm)

/-- `CMP r/m16, imm8 sign-extended` (R248, R266, R145). -/
def execCmpRm16Imm8 (rm : RM Reg16) (imm : Byte) (s : State) : Result :=
  .next (s.aluRm16Imm16 .cmp rm (imm.signExtend 16))

/-! ### INC, DEC, NEG -/

/-- `INC` of a word register or place (R249, R250). -/
def State.inc16 (s : State) (p : Place Reg16) : State :=
  ((s.afterLoad16 p).setFlags (s.flags.afterInc (s.load16 p))).store16 p (addResult (s.load16 p) 1 false)

/-- `DEC` of a word register or place (R251, R252). -/
def State.dec16 (s : State) (p : Place Reg16) : State :=
  ((s.afterLoad16 p).setFlags (s.flags.afterDec (s.load16 p))).store16 p (subResult (s.load16 p) 1 false)

/-- `INC r/m8` (R249). -/
def execIncRm8 (rm : RM Reg8) (s : State) : Result :=
  .next (((s.afterRm8 rm).setFlags (s.flags.afterInc (s.rm8 rm))).store8 (s.place rm) (addResult (s.rm8 rm) 1 false))

/-- `INC r/m16` (R249). -/
def execIncRm16 (rm : RM Reg16) (s : State) : Result := .next (s.inc16 (s.place rm))

/-- `INC r16` (R250). -/
def execIncR16 (r : Reg16) (s : State) : Result := .next (s.inc16 (.reg r))

/-- `DEC r/m8` (R251). -/
def execDecRm8 (rm : RM Reg8) (s : State) : Result :=
  .next (((s.afterRm8 rm).setFlags (s.flags.afterDec (s.rm8 rm))).store8 (s.place rm) (subResult (s.rm8 rm) 1 false))

/-- `DEC r/m16` (R251). -/
def execDecRm16 (rm : RM Reg16) (s : State) : Result := .next (s.dec16 (s.place rm))

/-- `DEC r16` (R252). -/
def execDecR16 (r : Reg16) (s : State) : Result := .next (s.dec16 (.reg r))

/-- `NEG r/m8` (R253). -/
def execNegRm8 (rm : RM Reg8) (s : State) : Result :=
  .next (((s.afterRm8 rm).setFlags (s.flags.afterSub 0 (s.rm8 rm) false)).store8 (s.place rm)
    (subResult 0 (s.rm8 rm) false))

/-- `NEG r/m16` (R253). -/
def execNegRm16 (rm : RM Reg16) (s : State) : Result :=
  .next (((s.afterRm16 rm).setFlags (s.flags.afterSub 0 (s.rm16 rm) false)).store16 (s.place rm)
    (subResult 0 (s.rm16 rm) false))

/-! ### MUL and IMUL -/

/-- A 16-bit product written to `AX`; `CF = OF = high` (R254, R255). -/
def State.product16 (s : State) (p : Word) (high : Bool) : State :=
  ((s.set16 .ax p).setFlags (s.flags.afterMul high s.freeFlags)).drew true

/-- A 32-bit product written to `DX:AX`; `CF = OF = high` (R254, R255). -/
def State.product32 (s : State) (p : BitVec 32) (high : Bool) : State :=
  (((s.set16 .dx (p.extractLsb' 16 16)).set16 .ax (p.extractLsb' 0 16)).setFlags
    (s.flags.afterMul high s.freeFlags)).drew true

/-- The unsigned byte product (R254). -/
def mul8 (a b : Byte) : Word := a.setWidth 16 * b.setWidth 16

/-- The unsigned word product (R254). -/
def mul16 (a b : Word) : BitVec 32 := a.setWidth 32 * b.setWidth 32

/-- The signed byte product (R255). -/
def imul8 (a b : Byte) : Word := a.signExtend 16 * b.signExtend 16

/-- The signed word product (R255). -/
def imul16 (a b : Word) : BitVec 32 := a.signExtend 32 * b.signExtend 32

/-- `MUL r/m8` (R254). -/
def execMulRm8 (rm : RM Reg8) (s : State) : Result :=
  .next ((s.afterRm8 rm).product16 (mul8 (s.get8 .al) (s.rm8 rm)) (hiByte (mul8 (s.get8 .al) (s.rm8 rm)) != 0))

/-- `MUL r/m16` (R254). -/
def execMulRm16 (rm : RM Reg16) (s : State) : Result :=
  .next ((s.afterRm16 rm).product32 (mul16 s.regs.ax (s.rm16 rm)) ((mul16 s.regs.ax (s.rm16 rm)).extractLsb' 16 16 != 0))

/-- `IMUL r/m8` (R255). -/
def execImulRm8 (rm : RM Reg8) (s : State) : Result :=
  .next ((s.afterRm8 rm).product16 (imul8 (s.get8 .al) (s.rm8 rm))
    (imul8 (s.get8 .al) (s.rm8 rm) != (loByte (imul8 (s.get8 .al) (s.rm8 rm))).signExtend 16))

/-- `IMUL r/m16` (R255). -/
def execImulRm16 (rm : RM Reg16) (s : State) : Result :=
  .next ((s.afterRm16 rm).product32 (imul16 s.regs.ax (s.rm16 rm))
    (imul16 s.regs.ax (s.rm16 rm) != ((imul16 s.regs.ax (s.rm16 rm)).extractLsb' 0 16).signExtend 32))

/-! ### DIV and IDIV -/

/-- A byte division that completes: `AL <- q; AH <- r`, all six status flags undefined (R256, R257). -/
def State.quotient8 (s : State) (q r : Byte) : State :=
  ((s.set16 .ax (mkWord q r)).setFlags (s.flags.afterDiv s.freeFlags)).drew true

/-- A word division that completes: `AX <- q; DX <- r`, all six status flags undefined (R256, R257). -/
def State.quotient16 (s : State) (q r : Word) : State :=
  (((s.set16 .ax q).set16 .dx r).setFlags (s.flags.afterDiv s.freeFlags)).drew true

/-- `DX:AX`, the 32-bit dividend (R256, R257). -/
def State.dividend32 (s : State) : BitVec 32 := s.regs.dx ++ s.regs.ax

/-- Unsigned division of `AX` by a byte (R256). -/
def State.div8 (s : State) (d : Byte) : State :=
  if d.toNat = 0 then s.divideError
  else if 0xFF < s.regs.ax.toNat / d.toNat then s.divideError
  else s.quotient8 (BitVec.ofNat 8 (s.regs.ax.toNat / d.toNat)) (BitVec.ofNat 8 (s.regs.ax.toNat % d.toNat))

/-- Unsigned division of `DX:AX` by a word (R256). -/
def State.div16 (s : State) (d : Word) : State :=
  if d.toNat = 0 then s.divideError
  else if 0xFFFF < s.dividend32.toNat / d.toNat then s.divideError
  else
    s.quotient16 (BitVec.ofNat 16 (s.dividend32.toNat / d.toNat)) (BitVec.ofNat 16 (s.dividend32.toNat % d.toNat))

/-- The signed quotient is out of range for width w. Whether the quotient `-2^(w-1)` fits is the parameter
`IDIV_MIN_QUOTIENT` (R257, D18). -/
def idivOverflow (w : Nat) (q : Int) : Bool :=
  decide (2 ^ (w - 1) - 1 < q) || decide (q < -2 ^ (w - 1)) ||
    (decide (q = -2 ^ (w - 1)) && !Config.idivMinQuotientFits)

/-- Signed division of `AX` by a byte, truncating toward zero (R257). -/
def State.idiv8 (s : State) (d : Byte) : State :=
  if d.toNat = 0 then s.divideError
  else if idivOverflow 8 (s.regs.ax.toInt.tdiv d.toInt) then s.divideError
  else s.quotient8 (BitVec.ofInt 8 (s.regs.ax.toInt.tdiv d.toInt)) (BitVec.ofInt 8 (s.regs.ax.toInt.tmod d.toInt))

/-- Signed division of `DX:AX` by a word, truncating toward zero (R257). -/
def State.idiv16 (s : State) (d : Word) : State :=
  if d.toNat = 0 then s.divideError
  else if idivOverflow 16 (s.dividend32.toInt.tdiv d.toInt) then s.divideError
  else
    s.quotient16 (BitVec.ofInt 16 (s.dividend32.toInt.tdiv d.toInt))
      (BitVec.ofInt 16 (s.dividend32.toInt.tmod d.toInt))

/-- `DIV r/m8` (R256, R267). -/
def execDivRm8 (rm : RM Reg8) (s : State) : Result := .next ((s.afterRm8 rm).div8 (s.rm8 rm))

/-- `DIV r/m16` (R256, R267). -/
def execDivRm16 (rm : RM Reg16) (s : State) : Result := .next ((s.afterRm16 rm).div16 (s.rm16 rm))

/-- `IDIV r/m8` (R257, R267). -/
def execIdivRm8 (rm : RM Reg8) (s : State) : Result := .next ((s.afterRm8 rm).idiv8 (s.rm8 rm))

/-- `IDIV r/m16` (R257, R267). -/
def execIdivRm16 (rm : RM Reg16) (s : State) : Result := .next ((s.afterRm16 rm).idiv16 (s.rm16 rm))

/-! ### Decimal and ASCII adjusts, CBW, CWD -/

/-- The low nibble of `AL` is no decimal digit, or `AF` is set (R258 to R261). -/
def State.nibbleAdjust (s : State) : Bool := decide (9 < ((s.get8 .al).extractLsb' 0 4).toNat) || s.flags.af

/-- `AL` after the low-nibble correction of `AAA`, `AAS`, `DAA` and `DAS` by `d` (R258 to R261). -/
def State.alAdjusted (s : State) (d : Byte) : Byte := if s.nibbleAdjust then s.get8 .al + d else s.get8 .al

/-- `AAA` and `AAS`: `AL` corrected by `d` and masked to a nibble, `AH` corrected by `e` (R258, R259). -/
def State.asciiAdjust (s : State) (d e : Byte) : State :=
  ((s.set16 .ax
      (mkWord (s.alAdjusted d &&& 0x0F) (if s.nibbleAdjust then s.get8 .ah + e else s.get8 .ah))).setFlags
    (s.flags.afterAscii s.nibbleAdjust s.freeFlags)).drew true

/-- The high digit of `AL` needs the correction of `DAA` and `DAS`: old `AL` above 99h, or old `CF` (R260, R261). -/
def State.highAdjust (s : State) : Bool := decide (0x99 < (s.get8 .al).toNat) || s.flags.cf

/-- `DAA` and `DAS`: `AL` corrected by `d` and then by `e`; `CF <- cf` (R260, R261). -/
def State.decimalAdjust (s : State) (d e : Byte) (cf : Bool) : State :=
  let al := if s.highAdjust then s.alAdjusted d + e else s.alAdjusted d
  ((s.set8 .al al).setFlags (s.flags.afterDecimal al s.nibbleAdjust cf s.freeFlags)).drew true

/-- `CF` after `DAS`: set by the high correction, else by the borrow of the low one (R261). -/
def State.dasCarry (s : State) : Bool :=
  s.highAdjust || (s.nibbleAdjust && (s.flags.cf || decide ((s.get8 .al).toNat < 6)))

/-- `AX` and flags after `AAM` and `AAD` (R262, R263). -/
def State.asciiMul (s : State) (al ah : Byte) : State :=
  ((s.set16 .ax (mkWord al ah)).setFlags (s.flags.afterAsciiMul al s.freeFlags)).drew true

/-- `AAM` with base b; base 0 is a divide error (R262). -/
def State.aam (s : State) (b : Byte) : State :=
  if b = 0 then s.divideError else s.asciiMul (s.get8 .al % b) (s.get8 .al / b)

/-- `AAA` (R258). -/
def execAaa (s : State) : Result := .next (s.asciiAdjust 6 1)

/-- `AAS` (R259). -/
def execAas (s : State) : Result := .next (s.asciiAdjust (-6) (-1))

/-- `DAA` (R260). -/
def execDaa (s : State) : Result := .next (s.decimalAdjust 6 0x60 s.highAdjust)

/-- `DAS` (R261). -/
def execDas (s : State) : Result := .next (s.decimalAdjust (-6) (-0x60) s.dasCarry)

/-- `AAM imm8` (R262). -/
def execAamImm8 (imm : Byte) (s : State) : Result := .next (s.aam imm)

/-- `AAD imm8` (R263). -/
def execAadImm8 (imm : Byte) (s : State) : Result := .next (s.asciiMul (s.get8 .al + s.get8 .ah * imm) 0)

/-- `CBW` (R264). -/
def execCbw (s : State) : Result := .next (s.set16 .ax ((s.get8 .al).signExtend 16))

/-- `CWD` (R265). -/
def execCwd (s : State) : Result := .next (s.set16 .dx (if s.regs.ax.msb then 0xFFFF else 0))

end Sys2Proof.Machine
end

