-- ==== Sys2Proof/Machine/Control.lean ====
section
/-! DEFINITION. Control transfer (44_control_transfer.md): jumps, calls, returns, conditional jumps, loops, software interrupts
and the interrupt return. `IP` is already past the instruction when a meaning runs (R330). -/

namespace Sys2Proof.Machine

/-! ### Shared parts -/

/-- `CALL` near: the return address pushed, then `IP <- target` (R336, R337). -/
def State.callNear (s : State) (target : Word) : State := (s.push16 s.ip).setIp target

/-- `JMP` far (R334, R335). -/
def State.jumpFar (s : State) (off seg : Word) : State := (s.setIp off).setCs seg

/-- `CALL` far: `CS` pushed, then `IP`, then the transfer (R338, R339). -/
def State.callFar (s : State) (off seg : Word) : State := ((s.push16 s.cs).push16 s.ip).jumpFar off seg

/-- `RET` near: `IP` from the stack, then n bytes released (R340, R341). -/
def State.retNear (s : State) (n : Word) : State :=
  let t := s.drop16.setIp s.top16
  t.setSp (t.regs.sp + n)

/-- `RET` far: `IP`, then `CS` from the stack, then n bytes released (R342, R343). -/
def State.retFar (s : State) (n : Word) : State :=
  let t := s.drop16.setIp s.top16
  let t2 := t.drop16.setCs t.top16
  t2.setSp (t2.regs.sp + n)

/-- The decrement of `CX` and the jump of the loop instructions (R360 to R362). -/
def State.loopBy (s : State) (cond : Bool) (rel : Byte) : State :=
  (s.set16 .cx (s.regs.cx - 1)).jumpIf (s.regs.cx - 1 != 0 && cond) rel

/-- `INT n`: the hook table first, then `Interrupt(n)` (R364, R411). -/
def State.softInterrupt (s : State) (n : Byte) : State :=
  if s.hooks.contains n then s.runHook n else s.interrupt n

/-! ### Jumps, calls and returns -/

/-- `JMP rel8` (R331). -/
def execJmpRel8 (rel : Byte) (s : State) : Result := .next (s.jumpBy (rel.signExtend 16))

/-- `JMP rel16` (R332). -/
def execJmpRel16 (rel : Word) (s : State) : Result := .next (s.jumpBy rel)

/-- `JMP r/m16` (R333). -/
def execJmpRm16 (rm : RM Reg16) (s : State) : Result := .next ((s.afterRm16 rm).setIp (s.rm16 rm))

/-- `JMP far ptr16:16` (R334). -/
def execJmpFarPtr (off : Word) (seg : Word) (s : State) : Result := .next (s.jumpFar off seg)

/-- `JMP far m16:16` (R335). -/
def execJmpFarM (m : Mem) (s : State) : Result := .next ((s.afterFar m).jumpFar (s.farOff m) (s.farSeg m))

/-- `CALL rel16` (R336). -/
def execCallRel16 (rel : Word) (s : State) : Result := .next (s.callNear (s.ip + rel))

/-- `CALL r/m16` (R337). -/
def execCallRm16 (rm : RM Reg16) (s : State) : Result := .next ((s.afterRm16 rm).callNear (s.rm16 rm))

/-- `CALL far ptr16:16` (R338). -/
def execCallFarPtr (off : Word) (seg : Word) (s : State) : Result := .next (s.callFar off seg)

/-- `CALL far m16:16` (R339). -/
def execCallFarM (m : Mem) (s : State) : Result := .next ((s.afterFar m).callFar (s.farOff m) (s.farSeg m))

/-- `RET` (R340). -/
def execRet (s : State) : Result := .next (s.retNear 0)

/-- `RET imm16` (R341). -/
def execRetImm16 (imm : Word) (s : State) : Result := .next (s.retNear imm)

/-- `RETF` (R342). -/
def execRetf (s : State) : Result := .next (s.retFar 0)

/-- `RETF imm16` (R343). -/
def execRetfImm16 (imm : Word) (s : State) : Result := .next (s.retFar imm)

/-! ### Conditional jumps (R369) -/

/-- `JO rel8` (R344). -/
def execJoRel8 (rel : Byte) (s : State) : Result := .next (s.jumpIf (s.flags.cond 0) rel)

/-- `JNO rel8` (R345). -/
def execJnoRel8 (rel : Byte) (s : State) : Result := .next (s.jumpIf (s.flags.cond 1) rel)

/-- `JB rel8` (R346). -/
def execJbRel8 (rel : Byte) (s : State) : Result := .next (s.jumpIf (s.flags.cond 2) rel)

/-- `JNB rel8` (R347). -/
def execJnbRel8 (rel : Byte) (s : State) : Result := .next (s.jumpIf (s.flags.cond 3) rel)

/-- `JZ rel8` (R348). -/
def execJzRel8 (rel : Byte) (s : State) : Result := .next (s.jumpIf (s.flags.cond 4) rel)

/-- `JNZ rel8` (R349). -/
def execJnzRel8 (rel : Byte) (s : State) : Result := .next (s.jumpIf (s.flags.cond 5) rel)

/-- `JBE rel8` (R350). -/
def execJbeRel8 (rel : Byte) (s : State) : Result := .next (s.jumpIf (s.flags.cond 6) rel)

/-- `JNBE rel8` (R351). -/
def execJnbeRel8 (rel : Byte) (s : State) : Result := .next (s.jumpIf (s.flags.cond 7) rel)

/-- `JS rel8` (R352). -/
def execJsRel8 (rel : Byte) (s : State) : Result := .next (s.jumpIf (s.flags.cond 8) rel)

/-- `JNS rel8` (R353). -/
def execJnsRel8 (rel : Byte) (s : State) : Result := .next (s.jumpIf (s.flags.cond 9) rel)

/-- `JP rel8` (R354). -/
def execJpRel8 (rel : Byte) (s : State) : Result := .next (s.jumpIf (s.flags.cond 10) rel)

/-- `JNP rel8` (R355). -/
def execJnpRel8 (rel : Byte) (s : State) : Result := .next (s.jumpIf (s.flags.cond 11) rel)

/-- `JL rel8` (R356). -/
def execJlRel8 (rel : Byte) (s : State) : Result := .next (s.jumpIf (s.flags.cond 12) rel)

/-- `JNL rel8` (R357). -/
def execJnlRel8 (rel : Byte) (s : State) : Result := .next (s.jumpIf (s.flags.cond 13) rel)

/-- `JLE rel8` (R358). -/
def execJleRel8 (rel : Byte) (s : State) : Result := .next (s.jumpIf (s.flags.cond 14) rel)

/-- `JNLE rel8` (R359). -/
def execJnleRel8 (rel : Byte) (s : State) : Result := .next (s.jumpIf (s.flags.cond 15) rel)

/-! ### Loops -/

/-- `LOOP rel8` (R360). -/
def execLoopRel8 (rel : Byte) (s : State) : Result := .next (s.loopBy true rel)

/-- `LOOPZ rel8` (R361). -/
def execLoopzRel8 (rel : Byte) (s : State) : Result := .next (s.loopBy s.flags.zf rel)

/-- `LOOPNZ rel8` (R362). -/
def execLoopnzRel8 (rel : Byte) (s : State) : Result := .next (s.loopBy (!s.flags.zf) rel)

/-- `JCXZ rel8` (R363). -/
def execJcxzRel8 (rel : Byte) (s : State) : Result := .next (s.jumpIf (s.regs.cx == 0) rel)

/-! ### Software interrupts and interrupt return -/

/-- `INT imm8` (R364). -/
def execIntImm8 (vector : Byte) (s : State) : Result := .next (s.softInterrupt vector)

/-- `INT3` (R365). -/
def execInt3 (s : State) : Result := .next (s.interrupt 3)

/-- `INTO` (R366). -/
def execInto (s : State) : Result := .next (if s.flags.ofl then s.interrupt 4 else s)

/-- `IRET` (R367). -/
def execIret (s : State) : Result := .next (s.interruptReturn)

end Sys2Proof.Machine
end

