-- ==== Sys2Proof/Machine/DataTransfer.lean ====
section
/-! DEFINITION. Data transfer (40_data_transfer.md): MOV, PUSH, POP, XCHG, XLAT, the address loads, IN and OUT, and the flag
transfers. No instruction of this family raises an exception, and only SAHF and POPF write a flag (R200). -/

namespace Sys2Proof.Machine

/-! ### MOV -/

/-- `MOV r/m8, r8` (R201). -/
def execMovRm8R8 (rm : RM Reg8) (r : Reg8) (s : State) : Result := .next (s.setRm8 rm (s.get8 r))

/-- `MOV r/m16, r16` (R201). -/
def execMovRm16R16 (rm : RM Reg16) (r : Reg16) (s : State) : Result := .next (s.setRm16 rm (s.get16 r))

/-- `MOV r8, r/m8` (R202). -/
def execMovR8Rm8 (r : Reg8) (rm : RM Reg8) (s : State) : Result := .next ((s.afterRm8 rm).set8 r (s.rm8 rm))

/-- `MOV r16, r/m16` (R202). -/
def execMovR16Rm16 (r : Reg16) (rm : RM Reg16) (s : State) : Result := .next ((s.afterRm16 rm).set16 r (s.rm16 rm))

/-- `MOV r/m8, imm8` (R203). -/
def execMovRm8Imm8 (rm : RM Reg8) (imm : Byte) (s : State) : Result := .next (s.setRm8 rm imm)

/-- `MOV r/m16, imm16` (R203). -/
def execMovRm16Imm16 (rm : RM Reg16) (imm : Word) (s : State) : Result := .next (s.setRm16 rm imm)

/-- `MOV r8, imm8` (R204). -/
def execMovR8Imm8 (r : Reg8) (imm : Byte) (s : State) : Result := .next (s.set8 r imm)

/-- `MOV r16, imm16` (R204). -/
def execMovR16Imm16 (r : Reg16) (imm : Word) (s : State) : Result := .next (s.set16 r imm)

/-- `MOV AL, moffs8` (R205). -/
def execMovAlMoffs8 (off : Word) (s : State) : Result :=
  .next ((s.afterRead8 (s.moffsAddr off)).set8 .al (s.read8 (s.moffsAddr off)))

/-- `MOV AX, moffs16` (R205). -/
def execMovAxMoffs16 (off : Word) (s : State) : Result :=
  .next ((s.afterRead16 (s.moffsAddr off)).set16 .ax (s.read16 (s.moffsAddr off)))

/-- `MOV moffs8, AL` (R206). -/
def execMovMoffs8Al (off : Word) (s : State) : Result := .next (s.write8 (s.moffsAddr off) (s.get8 .al))

/-- `MOV moffs16, AX` (R206). -/
def execMovMoffs16Ax (off : Word) (s : State) : Result := .next (s.write16 (s.moffsAddr off) (s.get16 .ax))

/-- `MOV r/m16, ES` (R207). -/
def execMovRm16Es (rm : RM Reg16) (s : State) : Result := .next (s.setRm16 rm s.es)

/-- `MOV r/m16, CS` (R207). -/
def execMovRm16Cs (rm : RM Reg16) (s : State) : Result := .next (s.setRm16 rm s.cs)

/-- `MOV r/m16, SS` (R207). -/
def execMovRm16Ss (rm : RM Reg16) (s : State) : Result := .next (s.setRm16 rm s.ss)

/-- `MOV r/m16, DS` (R207). -/
def execMovRm16Ds (rm : RM Reg16) (s : State) : Result := .next (s.setRm16 rm s.ds)

/-- `MOV ES, r/m16` (R208). -/
def execMovEsRm16 (rm : RM Reg16) (s : State) : Result := .next ((s.afterRm16 rm).setS .es (s.rm16 rm))

/-- `MOV SS, r/m16` (R208). -/
def execMovSsRm16 (rm : RM Reg16) (s : State) : Result := .next ((s.afterRm16 rm).setS .ss (s.rm16 rm))

/-- `MOV DS, r/m16` (R208). -/
def execMovDsRm16 (rm : RM Reg16) (s : State) : Result := .next ((s.afterRm16 rm).setS .ds (s.rm16 rm))

/-! ### PUSH and POP -/

/-- What `PUSH r16` stores: for `SP` the already decremented value (R209, D16). -/
def State.pushValue (s : State) : Reg16 → Word
  | .sp => s.regs.sp - 2
  | r => s.get16 r

/-- `PUSH r16` (R209). -/
def execPushR16 (r : Reg16) (s : State) : Result := .next (s.push16 (s.pushValue r))

/-- `PUSH r/m16` (R210). -/
def execPushRm16 (rm : RM Reg16) (s : State) : Result := .next ((s.afterRm16 rm).push16 (s.rm16 rm))

/-- `PUSH ES` (R211). -/
def execPushEs (s : State) : Result := .next (s.push16 s.es)

/-- `PUSH CS` (R211). -/
def execPushCs (s : State) : Result := .next (s.push16 s.cs)

/-- `PUSH SS` (R211). -/
def execPushSs (s : State) : Result := .next (s.push16 s.ss)

/-- `PUSH DS` (R211). -/
def execPushDs (s : State) : Result := .next (s.push16 s.ds)

/-- `POP r16` (R212). -/
def execPopR16 (r : Reg16) (s : State) : Result := .next (s.drop16.set16 r s.top16)

/-- `POP r/m16` (R213). -/
def execPopRm16 (rm : RM Reg16) (s : State) : Result := .next (s.drop16.store16 (s.place rm) s.top16)

/-- `POP ES` (R214). -/
def execPopEs (s : State) : Result := .next (s.drop16.setS .es s.top16)

/-- `POP SS` (R214). -/
def execPopSs (s : State) : Result := .next (s.drop16.setS .ss s.top16)

/-- `POP DS` (R214). -/
def execPopDs (s : State) : Result := .next (s.drop16.setS .ds s.top16)

/-! ### XCHG, XLAT and the address loads -/

/-- `XCHG r/m8, r8` (R215). -/
def execXchgRm8R8 (rm : RM Reg8) (r : Reg8) (s : State) : Result :=
  .next (((s.afterRm8 rm).setRm8 rm (s.get8 r)).set8 r (s.rm8 rm))

/-- `XCHG r/m16, r16` (R215). -/
def execXchgRm16R16 (rm : RM Reg16) (r : Reg16) (s : State) : Result :=
  .next (((s.afterRm16 rm).setRm16 rm (s.get16 r)).set16 r (s.rm16 rm))

/-- `t <- AX; AX <- r16[r]; r16[r] <- t` (R216). -/
def State.xchgAx (s : State) (r : Reg16) : State := (s.set16 .ax (s.get16 r)).set16 r (s.get16 .ax)

/-- `XCHG AX, CX` (R216). -/
def execXchgAxCx (s : State) : Result := .next (s.xchgAx .cx)

/-- `XCHG AX, DX` (R216). -/
def execXchgAxDx (s : State) : Result := .next (s.xchgAx .dx)

/-- `XCHG AX, BX` (R216). -/
def execXchgAxBx (s : State) : Result := .next (s.xchgAx .bx)

/-- `XCHG AX, SP` (R216). -/
def execXchgAxSp (s : State) : Result := .next (s.xchgAx .sp)

/-- `XCHG AX, BP` (R216). -/
def execXchgAxBp (s : State) : Result := .next (s.xchgAx .bp)

/-- `XCHG AX, SI` (R216). -/
def execXchgAxSi (s : State) : Result := .next (s.xchgAx .si)

/-- `XCHG AX, DI` (R216). -/
def execXchgAxDi (s : State) : Result := .next (s.xchgAx .di)

/-- The table entry `XLAT` reads: offset `BX + AL` modulo 2^16 (R218). -/
def State.xlatAddr (s : State) : Addr := lin (s.segOr .ds) (s.regs.bx + (s.get8 .al).setWidth 16)

/-- `XLAT` (R218). -/
def execXlat (s : State) : Result := .next ((s.afterRead8 s.xlatAddr).set8 .al (s.read8 s.xlatAddr))

/-- `LEA r16, m` (R219). -/
def execLeaR16M (r : Reg16) (m : Mem) (s : State) : Result := .next (s.set16 r (s.ea m))

/-- `LDS r16, m16:16` (R220). -/
def execLdsR16M (r : Reg16) (m : Mem) (s : State) : Result :=
  .next (((s.afterFar m).set16 r (s.farOff m)).setS .ds (s.farSeg m))

/-- `LES r16, m16:16` (R221). -/
def execLesR16M (r : Reg16) (m : Mem) (s : State) : Result :=
  .next (((s.afterFar m).set16 r (s.farOff m)).setS .es (s.farSeg m))

/-! ### IN and OUT -/

/-- `AL <- PortIn8(p)` (R222, R224). -/
def State.inAl (s : State) (p : Word) : State := (s.portIn8 p).2.set8 .al (s.portIn8 p).1

/-- `AX <- PortIn(p, 2)` (R223, R225). -/
def State.inAx (s : State) (p : Word) : State := (s.portIn16 p).2.set16 .ax (s.portIn16 p).1

/-- `IN AL, imm8` (R222). -/
def execInAlImm8 (port : Byte) (s : State) : Result := .next (s.inAl (port.setWidth 16))

/-- `IN AX, imm8` (R223). -/
def execInAxImm8 (port : Byte) (s : State) : Result := .next (s.inAx (port.setWidth 16))

/-- `IN AL, DX` (R224). -/
def execInAlDx (s : State) : Result := .next (s.inAl s.regs.dx)

/-- `IN AX, DX` (R225). -/
def execInAxDx (s : State) : Result := .next (s.inAx s.regs.dx)

/-- `OUT imm8, AL` (R226). -/
def execOutImm8Al (port : Byte) (s : State) : Result := .next (s.portOut8 (port.setWidth 16) (s.get8 .al))

/-- `OUT imm8, AX` (R227). -/
def execOutImm8Ax (port : Byte) (s : State) : Result := .next (s.portOut16 (port.setWidth 16) (s.get16 .ax))

/-- `OUT DX, AL` (R228). -/
def execOutDxAl (s : State) : Result := .next (s.portOut8 s.regs.dx (s.get8 .al))

/-- `OUT DX, AX` (R229). -/
def execOutDxAx (s : State) : Result := .next (s.portOut16 s.regs.dx (s.get16 .ax))

/-! ### Flag transfers -/

/-- `LAHF` (R230). -/
def execLahf (s : State) : Result := .next (s.set8 .ah (loByte s.flags.image))

/-- The five flags that `SAHF` loads from `AH` (R231). -/
def Flags.loadLow (f : Flags) (ah : Byte) : Flags :=
  { f with sf := ah.getLsbD 7, zf := ah.getLsbD 6, af := ah.getLsbD 4, pf := ah.getLsbD 2, cf := ah.getLsbD 0 }

/-- `SAHF` (R231). -/
def execSahf (s : State) : Result := .next (s.setFlags (s.flags.loadLow (s.get8 .ah)))

/-- `PUSHF` (R232). -/
def execPushf (s : State) : Result := .next (s.push16 s.flags.image)

/-- `POPF` (R233). -/
def execPopf (s : State) : Result := .next (s.drop16.setFlags (flagsOfImage s.top16))

end Sys2Proof.Machine
end

