-- ==== Sys2Proof/Machine/Logic.lean ====
section
/-! DEFINITION. Logic (42_logic_shift_rotate.md section 1): the ALU forms of AND, OR and XOR, NOT, and TEST. -/

namespace Sys2Proof.Machine

/-! ### AND -/

/-- `AND r/m8, r8` (R282, R266). -/
def execAndRm8R8 (rm : RM Reg8) (r : Reg8) (s : State) : Result := .next (s.aluRm8R8 .and rm r)

/-- `AND r/m16, r16` (R282, R266). -/
def execAndRm16R16 (rm : RM Reg16) (r : Reg16) (s : State) : Result := .next (s.aluRm16R16 .and rm r)

/-- `AND r8, r/m8` (R282, R266). -/
def execAndR8Rm8 (r : Reg8) (rm : RM Reg8) (s : State) : Result := .next (s.aluR8Rm8 .and r rm)

/-- `AND r16, r/m16` (R282, R266). -/
def execAndR16Rm16 (r : Reg16) (rm : RM Reg16) (s : State) : Result := .next (s.aluR16Rm16 .and r rm)

/-- `AND AL, imm8` (R282, R266). -/
def execAndAlImm8 (imm : Byte) (s : State) : Result := .next (s.aluAlImm8 .and imm)

/-- `AND AX, imm16` (R282, R266). -/
def execAndAxImm16 (imm : Word) (s : State) : Result := .next (s.aluAxImm16 .and imm)

/-- `AND r/m8, imm8` (R282, R266). -/
def execAndRm8Imm8 (rm : RM Reg8) (imm : Byte) (s : State) : Result := .next (s.aluRm8Imm8 .and rm imm)

/-- `AND r/m16, imm16` (R282, R266). -/
def execAndRm16Imm16 (rm : RM Reg16) (imm : Word) (s : State) : Result := .next (s.aluRm16Imm16 .and rm imm)

/-- `AND r/m8, imm8 (alias of 80h)` (R282, R266, R145). -/
def execAndRm8Imm8Alias (rm : RM Reg8) (imm : Byte) (s : State) : Result := .next (s.aluRm8Imm8 .and rm imm)

/-- `AND r/m16, imm8 sign-extended` (R282, R266, R145). -/
def execAndRm16Imm8 (rm : RM Reg16) (imm : Byte) (s : State) : Result :=
  .next (s.aluRm16Imm16 .and rm (imm.signExtend 16))

/-! ### OR -/

/-- `OR r/m8, r8` (R283, R266). -/
def execOrRm8R8 (rm : RM Reg8) (r : Reg8) (s : State) : Result := .next (s.aluRm8R8 .or rm r)

/-- `OR r/m16, r16` (R283, R266). -/
def execOrRm16R16 (rm : RM Reg16) (r : Reg16) (s : State) : Result := .next (s.aluRm16R16 .or rm r)

/-- `OR r8, r/m8` (R283, R266). -/
def execOrR8Rm8 (r : Reg8) (rm : RM Reg8) (s : State) : Result := .next (s.aluR8Rm8 .or r rm)

/-- `OR r16, r/m16` (R283, R266). -/
def execOrR16Rm16 (r : Reg16) (rm : RM Reg16) (s : State) : Result := .next (s.aluR16Rm16 .or r rm)

/-- `OR AL, imm8` (R283, R266). -/
def execOrAlImm8 (imm : Byte) (s : State) : Result := .next (s.aluAlImm8 .or imm)

/-- `OR AX, imm16` (R283, R266). -/
def execOrAxImm16 (imm : Word) (s : State) : Result := .next (s.aluAxImm16 .or imm)

/-- `OR r/m8, imm8` (R283, R266). -/
def execOrRm8Imm8 (rm : RM Reg8) (imm : Byte) (s : State) : Result := .next (s.aluRm8Imm8 .or rm imm)

/-- `OR r/m16, imm16` (R283, R266). -/
def execOrRm16Imm16 (rm : RM Reg16) (imm : Word) (s : State) : Result := .next (s.aluRm16Imm16 .or rm imm)

/-- `OR r/m8, imm8 (alias of 80h)` (R283, R266, R145). -/
def execOrRm8Imm8Alias (rm : RM Reg8) (imm : Byte) (s : State) : Result := .next (s.aluRm8Imm8 .or rm imm)

/-- `OR r/m16, imm8 sign-extended` (R283, R266, R145). -/
def execOrRm16Imm8 (rm : RM Reg16) (imm : Byte) (s : State) : Result :=
  .next (s.aluRm16Imm16 .or rm (imm.signExtend 16))

/-! ### XOR -/

/-- `XOR r/m8, r8` (R284, R266). -/
def execXorRm8R8 (rm : RM Reg8) (r : Reg8) (s : State) : Result := .next (s.aluRm8R8 .xor rm r)

/-- `XOR r/m16, r16` (R284, R266). -/
def execXorRm16R16 (rm : RM Reg16) (r : Reg16) (s : State) : Result := .next (s.aluRm16R16 .xor rm r)

/-- `XOR r8, r/m8` (R284, R266). -/
def execXorR8Rm8 (r : Reg8) (rm : RM Reg8) (s : State) : Result := .next (s.aluR8Rm8 .xor r rm)

/-- `XOR r16, r/m16` (R284, R266). -/
def execXorR16Rm16 (r : Reg16) (rm : RM Reg16) (s : State) : Result := .next (s.aluR16Rm16 .xor r rm)

/-- `XOR AL, imm8` (R284, R266). -/
def execXorAlImm8 (imm : Byte) (s : State) : Result := .next (s.aluAlImm8 .xor imm)

/-- `XOR AX, imm16` (R284, R266). -/
def execXorAxImm16 (imm : Word) (s : State) : Result := .next (s.aluAxImm16 .xor imm)

/-- `XOR r/m8, imm8` (R284, R266). -/
def execXorRm8Imm8 (rm : RM Reg8) (imm : Byte) (s : State) : Result := .next (s.aluRm8Imm8 .xor rm imm)

/-- `XOR r/m16, imm16` (R284, R266). -/
def execXorRm16Imm16 (rm : RM Reg16) (imm : Word) (s : State) : Result := .next (s.aluRm16Imm16 .xor rm imm)

/-- `XOR r/m8, imm8 (alias of 80h)` (R284, R266, R145). -/
def execXorRm8Imm8Alias (rm : RM Reg8) (imm : Byte) (s : State) : Result := .next (s.aluRm8Imm8 .xor rm imm)

/-- `XOR r/m16, imm8 sign-extended` (R284, R266, R145). -/
def execXorRm16Imm8 (rm : RM Reg16) (imm : Byte) (s : State) : Result :=
  .next (s.aluRm16Imm16 .xor rm (imm.signExtend 16))

/-! ### NOT and TEST -/

/-- `TEST`: the flags of `a AND b`; no operand is written (R285). -/
def State.test {w : Nat} (s : State) (a b : BitVec w) : State :=
  (s.setFlags (s.flags.afterLogic (a &&& b) s.freeFlags)).drew true

/-- `NOT r/m8` (R281). -/
def execNotRm8 (rm : RM Reg8) (s : State) : Result := .next ((s.afterRm8 rm).setRm8 rm (~~~(s.rm8 rm)))

/-- `NOT r/m16` (R281). -/
def execNotRm16 (rm : RM Reg16) (s : State) : Result := .next ((s.afterRm16 rm).setRm16 rm (~~~(s.rm16 rm)))

/-- `TEST r/m8, r8` (R285). -/
def execTestRm8R8 (rm : RM Reg8) (r : Reg8) (s : State) : Result := .next ((s.afterRm8 rm).test (s.rm8 rm) (s.get8 r))

/-- `TEST r/m16, r16` (R285). -/
def execTestRm16R16 (rm : RM Reg16) (r : Reg16) (s : State) : Result := .next ((s.afterRm16 rm).test (s.rm16 rm) (s.get16 r))

/-- `TEST AL, imm8` (R285). -/
def execTestAlImm8 (imm : Byte) (s : State) : Result := .next (s.test (s.get8 .al) imm)

/-- `TEST AX, imm16` (R285). -/
def execTestAxImm16 (imm : Word) (s : State) : Result := .next (s.test s.regs.ax imm)

/-- `TEST r/m8, imm8` (R285). -/
def execTestRm8Imm8 (rm : RM Reg8) (imm : Byte) (s : State) : Result := .next ((s.afterRm8 rm).test (s.rm8 rm) imm)

/-- `TEST r/m16, imm16` (R285). -/
def execTestRm16Imm16 (rm : RM Reg16) (imm : Word) (s : State) : Result := .next ((s.afterRm16 rm).test (s.rm16 rm) imm)

end Sys2Proof.Machine
end

