-- ==== Sys2Proof/Machine/Processor.lean ====
section
/-! DEFINITION. Processor control and prefixes (45_processor_control.md). -/

namespace Sys2Proof.Machine

/-! ### Flag instructions (R370) -/

/-- `CLC` (R371). -/
def execClc (s : State) : Result := .next (s.setFlags { s.flags with cf := false })

/-- `STC` (R372). -/
def execStc (s : State) : Result := .next (s.setFlags { s.flags with cf := true })

/-- `CMC` (R373). -/
def execCmc (s : State) : Result := .next (s.setFlags { s.flags with cf := !s.flags.cf })

/-- `CLD` (R374). -/
def execCld (s : State) : Result := .next (s.setFlags { s.flags with df := false })

/-- `STD` (R375). -/
def execStd (s : State) : Result := .next (s.setFlags { s.flags with df := true })

/-- `CLI` (R376). -/
def execCli (s : State) : Result := .next (s.setFlags { s.flags with ifl := false })

/-- `STI` (R377). -/
def execSti (s : State) : Result := .next (s.setFlags { s.flags with ifl := true })

/-! ### HLT, NOP, WAIT, ESC -/

/-- `HLT` with `IF = 0` ends the run, which is the outcome `CpuHalt`; with `IF = 1` the machine halts until an
interrupt is acknowledged (R378, R409, C1). -/
def State.haltNow (s : State) : State := if s.flags.ifl then { s with halt := true } else { s with ended := true }

/-- `HLT` (R378). -/
def execHlt (s : State) : Result := .next (s.haltNow)

/-- `NOP` (R379). -/
def execNop (s : State) : Result := .next (s)

/-- `WAIT` (R380). -/
def execWait (s : State) : Result := .next (s)

/-- `ESC opcode, r/m` (R381): nothing but the fetch of its bytes, whatever its operands are. -/
def execEscRm (_op : BitVec 6) (_rm : RM Reg16) (s : State) : Result := .next s

/-! ### Prefix bytes: what each adds to the pending prefixes of the step (R132) -/

/-- The pending segment override replaced; the last one fetched wins (R132, R383). -/
def State.override (s : State) (r : SReg) : State := { s with pend := { s.pend with ovr := some r } }

/-- The pending repeat prefix replaced; the last one fetched wins (R132, R311). -/
def State.repeatPrefix (s : State) (r : Rep) : State := { s with pend := { s.pend with rep := some r } }

/-- `ES: (segment override prefix)` (R383). -/
def execPrefixEs (s : State) : Result := .next (s.override .es)

/-- `CS: (segment override prefix)` (R383). -/
def execPrefixCs (s : State) : Result := .next (s.override .cs)

/-- `SS: (segment override prefix)` (R383). -/
def execPrefixSs (s : State) : Result := .next (s.override .ss)

/-- `DS: (segment override prefix)` (R383). -/
def execPrefixDs (s : State) : Result := .next (s.override .ds)

/-- `LOCK (prefix)` (R382). -/
def execPrefixLock (s : State) : Result := .next ({ s with pend := { s.pend with lock := true } })

/-- `REPNE / REPNZ (prefix)` (R311). -/
def execPrefixRepne (s : State) : Result := .next (s.repeatPrefix .repne)

/-- `REP / REPE / REPZ (prefix)` (R311). -/
def execPrefixRep (s : State) : Result := .next (s.repeatPrefix .rep)

end Sys2Proof.Machine
end

