-- ==== Sys2Proof/Machine/Shift.lean ====
section
/-! DEFINITION. Shifts and rotates (42_logic_shift_rotate.md section 2): seven operations on a byte or a word, by 1 or by `CL`. -/

namespace Sys2Proof.Machine

/-- `ROL r/m8, 1` (R290). -/
def execRolRm8One (rm : RM Reg8) (s : State) : Result := .next (s.shift8 .rol rm 1)

/-- `ROL r/m16, 1` (R290). -/
def execRolRm16One (rm : RM Reg16) (s : State) : Result := .next (s.shift16 .rol rm 1)

/-- `ROL r/m8, CL` (R290). -/
def execRolRm8Cl (rm : RM Reg8) (s : State) : Result := .next (s.shift8 .rol rm s.clCount)

/-- `ROL r/m16, CL` (R290). -/
def execRolRm16Cl (rm : RM Reg16) (s : State) : Result := .next (s.shift16 .rol rm s.clCount)

/-- `ROR r/m8, 1` (R291). -/
def execRorRm8One (rm : RM Reg8) (s : State) : Result := .next (s.shift8 .ror rm 1)

/-- `ROR r/m16, 1` (R291). -/
def execRorRm16One (rm : RM Reg16) (s : State) : Result := .next (s.shift16 .ror rm 1)

/-- `ROR r/m8, CL` (R291). -/
def execRorRm8Cl (rm : RM Reg8) (s : State) : Result := .next (s.shift8 .ror rm s.clCount)

/-- `ROR r/m16, CL` (R291). -/
def execRorRm16Cl (rm : RM Reg16) (s : State) : Result := .next (s.shift16 .ror rm s.clCount)

/-- `RCL r/m8, 1` (R292). -/
def execRclRm8One (rm : RM Reg8) (s : State) : Result := .next (s.shift8 .rcl rm 1)

/-- `RCL r/m16, 1` (R292). -/
def execRclRm16One (rm : RM Reg16) (s : State) : Result := .next (s.shift16 .rcl rm 1)

/-- `RCL r/m8, CL` (R292). -/
def execRclRm8Cl (rm : RM Reg8) (s : State) : Result := .next (s.shift8 .rcl rm s.clCount)

/-- `RCL r/m16, CL` (R292). -/
def execRclRm16Cl (rm : RM Reg16) (s : State) : Result := .next (s.shift16 .rcl rm s.clCount)

/-- `RCR r/m8, 1` (R293). -/
def execRcrRm8One (rm : RM Reg8) (s : State) : Result := .next (s.shift8 .rcr rm 1)

/-- `RCR r/m16, 1` (R293). -/
def execRcrRm16One (rm : RM Reg16) (s : State) : Result := .next (s.shift16 .rcr rm 1)

/-- `RCR r/m8, CL` (R293). -/
def execRcrRm8Cl (rm : RM Reg8) (s : State) : Result := .next (s.shift8 .rcr rm s.clCount)

/-- `RCR r/m16, CL` (R293). -/
def execRcrRm16Cl (rm : RM Reg16) (s : State) : Result := .next (s.shift16 .rcr rm s.clCount)

/-- `SHL r/m8, 1` (R287). -/
def execShlRm8One (rm : RM Reg8) (s : State) : Result := .next (s.shift8 .shl rm 1)

/-- `SHL r/m16, 1` (R287). -/
def execShlRm16One (rm : RM Reg16) (s : State) : Result := .next (s.shift16 .shl rm 1)

/-- `SHL r/m8, CL` (R287). -/
def execShlRm8Cl (rm : RM Reg8) (s : State) : Result := .next (s.shift8 .shl rm s.clCount)

/-- `SHL r/m16, CL` (R287). -/
def execShlRm16Cl (rm : RM Reg16) (s : State) : Result := .next (s.shift16 .shl rm s.clCount)

/-- `SHR r/m8, 1` (R288). -/
def execShrRm8One (rm : RM Reg8) (s : State) : Result := .next (s.shift8 .shr rm 1)

/-- `SHR r/m16, 1` (R288). -/
def execShrRm16One (rm : RM Reg16) (s : State) : Result := .next (s.shift16 .shr rm 1)

/-- `SHR r/m8, CL` (R288). -/
def execShrRm8Cl (rm : RM Reg8) (s : State) : Result := .next (s.shift8 .shr rm s.clCount)

/-- `SHR r/m16, CL` (R288). -/
def execShrRm16Cl (rm : RM Reg16) (s : State) : Result := .next (s.shift16 .shr rm s.clCount)

/-- `SAR r/m8, 1` (R289). -/
def execSarRm8One (rm : RM Reg8) (s : State) : Result := .next (s.shift8 .sar rm 1)

/-- `SAR r/m16, 1` (R289). -/
def execSarRm16One (rm : RM Reg16) (s : State) : Result := .next (s.shift16 .sar rm 1)

/-- `SAR r/m8, CL` (R289). -/
def execSarRm8Cl (rm : RM Reg8) (s : State) : Result := .next (s.shift8 .sar rm s.clCount)

/-- `SAR r/m16, CL` (R289). -/
def execSarRm16Cl (rm : RM Reg16) (s : State) : Result := .next (s.shift16 .sar rm s.clCount)

end Sys2Proof.Machine
end

