-- ==== Sys2Proof/Machine/Strings.lean ====
section
/-! DEFINITION. String instructions and the repeat prefixes (43_string.md): one iteration per step (R312). -/

namespace Sys2Proof.Machine

/-! ### Common parts (R310) -/

/-- `delta` for elements of n bytes: `+n` when `DF = 0`, `-n` when `DF = 1` (R310). -/
def State.delta (s : State) (n : Word) : Word := if s.flags.df then -n else n

/-- `SRC:SI`, the source operand; a segment override replaces `DS` (R310). -/
def State.srcAddr (s : State) : Addr := lin (s.segOr .ds) s.regs.si

/-- `ES:DI`, the destination operand, which no override changes (R310). -/
def State.destAddr (s : State) : Addr := lin s.es s.regs.di

/-- `SI <- (SI + delta) mod 2^16` (R310). -/
def State.stepSi (s : State) (n : Word) : State := s.set16 .si (s.regs.si + s.delta n)

/-- `DI <- (DI + delta) mod 2^16` (R310). -/
def State.stepDi (s : State) (n : Word) : State := s.set16 .di (s.regs.di + s.delta n)

/-- The comparison of `CMPS` and `SCAS`: the flags of `a - b` (R314, R315). -/
def State.compare {w : Nat} (s : State) (a b : BitVec w) : State := s.setFlags (s.flags.afterSub a b false)

/-- Whether a `CMPS` or `SCAS` iteration lets the repeat go on: `REPE` while `ZF = 1`, `REPNE` while `ZF = 0`
(R311, R312). -/
def repeatHolds (r : Rep) (zf : Bool) : Bool :=
  match r with
  | .rep => zf
  | .repne => !zf

/-- `CX <- (CX - 1) mod 2^16` after an iteration, and `IP` back at the instruction start when the repeat continues
(R312). -/
def State.afterIteration (s : State) (more : Bool) : State :=
  let t := s.set16 .cx (s.regs.cx - 1)
  if t.regs.cx != 0 && more then t.setIp t.pend.start else t

/-- `MOVS`, `LODS` and `STOS` under the pending repeat prefix; `once` is the single iteration (R311, R312, R319). -/
def State.repeated (s : State) (once : State → State) : State :=
  match s.pend.rep with
  | none => once s
  | some _ => if s.regs.cx = 0 then s else (once s).afterIteration true

/-- `CMPS` and `SCAS` under the pending repeat prefix (R311, R312, R319). -/
def State.repeatedCompare (s : State) (once : State → State) : State :=
  match s.pend.rep with
  | none => once s
  | some r => if s.regs.cx = 0 then s else (once s).afterIteration (repeatHolds r (once s).flags.zf)

/-! ### The single iterations (R313 to R317) -/

/-- One `MOVSB` (R313). -/
def State.movsb1 (s : State) : State :=
  (((s.afterRead8 s.srcAddr).write8 s.destAddr (s.read8 s.srcAddr)).stepSi 1).stepDi 1

/-- One `MOVSW` (R313). -/
def State.movsw1 (s : State) : State :=
  (((s.afterRead16 s.srcAddr).write16 s.destAddr (s.read16 s.srcAddr)).stepSi 2).stepDi 2

/-- One `CMPSB`: source minus destination, the source read first (R314). -/
def State.cmpsb1 (s : State) : State :=
  let u := s.afterRead8 s.srcAddr
  (((u.afterRead8 s.destAddr).compare (s.read8 s.srcAddr) (u.read8 s.destAddr)).stepSi 1).stepDi 1

/-- One `CMPSW`: source minus destination, the source read first (R314). -/
def State.cmpsw1 (s : State) : State :=
  let u := s.afterRead16 s.srcAddr
  (((u.afterRead16 s.destAddr).compare (s.read16 s.srcAddr) (u.read16 s.destAddr)).stepSi 2).stepDi 2

/-- One `SCASB`: `AL` minus destination (R315). -/
def State.scasb1 (s : State) : State :=
  ((s.afterRead8 s.destAddr).compare (s.get8 .al) (s.read8 s.destAddr)).stepDi 1

/-- One `SCASW`: `AX` minus destination (R315). -/
def State.scasw1 (s : State) : State :=
  ((s.afterRead16 s.destAddr).compare s.regs.ax (s.read16 s.destAddr)).stepDi 2

/-- One `LODSB` (R316). -/
def State.lodsb1 (s : State) : State := ((s.afterRead8 s.srcAddr).set8 .al (s.read8 s.srcAddr)).stepSi 1

/-- One `LODSW` (R316). -/
def State.lodsw1 (s : State) : State := ((s.afterRead16 s.srcAddr).set16 .ax (s.read16 s.srcAddr)).stepSi 2

/-- One `STOSB` (R317). -/
def State.stosb1 (s : State) : State := (s.write8 s.destAddr (s.get8 .al)).stepDi 1

/-- One `STOSW` (R317). -/
def State.stosw1 (s : State) : State := (s.write16 s.destAddr s.regs.ax).stepDi 2

/-! ### The instructions -/

/-- `MOVSB` (R313, R312). -/
def execMovsb (s : State) : Result := .next (s.repeated State.movsb1)

/-- `MOVSW` (R313, R312). -/
def execMovsw (s : State) : Result := .next (s.repeated State.movsw1)

/-- `CMPSB` (R314, R312). -/
def execCmpsb (s : State) : Result := .next (s.repeatedCompare State.cmpsb1)

/-- `CMPSW` (R314, R312). -/
def execCmpsw (s : State) : Result := .next (s.repeatedCompare State.cmpsw1)

/-- `SCASB` (R315, R312). -/
def execScasb (s : State) : Result := .next (s.repeatedCompare State.scasb1)

/-- `SCASW` (R315, R312). -/
def execScasw (s : State) : Result := .next (s.repeatedCompare State.scasw1)

/-- `LODSB` (R316, R312). -/
def execLodsb (s : State) : Result := .next (s.repeated State.lodsb1)

/-- `LODSW` (R316, R312). -/
def execLodsw (s : State) : Result := .next (s.repeated State.lodsw1)

/-- `STOSB` (R317, R312). -/
def execStosb (s : State) : Result := .next (s.repeated State.stosb1)

/-- `STOSW` (R317, R312). -/
def execStosw (s : State) : Result := .next (s.repeated State.stosw1)

end Sys2Proof.Machine
end

