-- ==== Sys2Proof/Machine/Dispatch.lean ====
section
/-! DEFINITION. The dispatch: one arm per constructor of `Instr`, each a direct call of its meaning. -/

namespace Sys2Proof.Machine

def exec (i : Instr) (s : State) : Host.Outcome State Fault Refusal :=
  match i with
  | .addRm8R8 rm r => Sys2Proof.Machine.execAddRm8R8 rm r s
  | .addRm16R16 rm r => Sys2Proof.Machine.execAddRm16R16 rm r s
  | .addR8Rm8 r rm => Sys2Proof.Machine.execAddR8Rm8 r rm s
  | .addR16Rm16 r rm => Sys2Proof.Machine.execAddR16Rm16 r rm s
  | .addAlImm8 imm => Sys2Proof.Machine.execAddAlImm8 imm s
  | .addAxImm16 imm => Sys2Proof.Machine.execAddAxImm16 imm s
  | .orRm8R8 rm r => Sys2Proof.Machine.execOrRm8R8 rm r s
  | .orRm16R16 rm r => Sys2Proof.Machine.execOrRm16R16 rm r s
  | .orR8Rm8 r rm => Sys2Proof.Machine.execOrR8Rm8 r rm s
  | .orR16Rm16 r rm => Sys2Proof.Machine.execOrR16Rm16 r rm s
  | .orAlImm8 imm => Sys2Proof.Machine.execOrAlImm8 imm s
  | .orAxImm16 imm => Sys2Proof.Machine.execOrAxImm16 imm s
  | .adcRm8R8 rm r => Sys2Proof.Machine.execAdcRm8R8 rm r s
  | .adcRm16R16 rm r => Sys2Proof.Machine.execAdcRm16R16 rm r s
  | .adcR8Rm8 r rm => Sys2Proof.Machine.execAdcR8Rm8 r rm s
  | .adcR16Rm16 r rm => Sys2Proof.Machine.execAdcR16Rm16 r rm s
  | .adcAlImm8 imm => Sys2Proof.Machine.execAdcAlImm8 imm s
  | .adcAxImm16 imm => Sys2Proof.Machine.execAdcAxImm16 imm s
  | .sbbRm8R8 rm r => Sys2Proof.Machine.execSbbRm8R8 rm r s
  | .sbbRm16R16 rm r => Sys2Proof.Machine.execSbbRm16R16 rm r s
  | .sbbR8Rm8 r rm => Sys2Proof.Machine.execSbbR8Rm8 r rm s
  | .sbbR16Rm16 r rm => Sys2Proof.Machine.execSbbR16Rm16 r rm s
  | .sbbAlImm8 imm => Sys2Proof.Machine.execSbbAlImm8 imm s
  | .sbbAxImm16 imm => Sys2Proof.Machine.execSbbAxImm16 imm s
  | .andRm8R8 rm r => Sys2Proof.Machine.execAndRm8R8 rm r s
  | .andRm16R16 rm r => Sys2Proof.Machine.execAndRm16R16 rm r s
  | .andR8Rm8 r rm => Sys2Proof.Machine.execAndR8Rm8 r rm s
  | .andR16Rm16 r rm => Sys2Proof.Machine.execAndR16Rm16 r rm s
  | .andAlImm8 imm => Sys2Proof.Machine.execAndAlImm8 imm s
  | .andAxImm16 imm => Sys2Proof.Machine.execAndAxImm16 imm s
  | .subRm8R8 rm r => Sys2Proof.Machine.execSubRm8R8 rm r s
  | .subRm16R16 rm r => Sys2Proof.Machine.execSubRm16R16 rm r s
  | .subR8Rm8 r rm => Sys2Proof.Machine.execSubR8Rm8 r rm s
  | .subR16Rm16 r rm => Sys2Proof.Machine.execSubR16Rm16 r rm s
  | .subAlImm8 imm => Sys2Proof.Machine.execSubAlImm8 imm s
  | .subAxImm16 imm => Sys2Proof.Machine.execSubAxImm16 imm s
  | .xorRm8R8 rm r => Sys2Proof.Machine.execXorRm8R8 rm r s
  | .xorRm16R16 rm r => Sys2Proof.Machine.execXorRm16R16 rm r s
  | .xorR8Rm8 r rm => Sys2Proof.Machine.execXorR8Rm8 r rm s
  | .xorR16Rm16 r rm => Sys2Proof.Machine.execXorR16Rm16 r rm s
  | .xorAlImm8 imm => Sys2Proof.Machine.execXorAlImm8 imm s
  | .xorAxImm16 imm => Sys2Proof.Machine.execXorAxImm16 imm s
  | .cmpRm8R8 rm r => Sys2Proof.Machine.execCmpRm8R8 rm r s
  | .cmpRm16R16 rm r => Sys2Proof.Machine.execCmpRm16R16 rm r s
  | .cmpR8Rm8 r rm => Sys2Proof.Machine.execCmpR8Rm8 r rm s
  | .cmpR16Rm16 r rm => Sys2Proof.Machine.execCmpR16Rm16 r rm s
  | .cmpAlImm8 imm => Sys2Proof.Machine.execCmpAlImm8 imm s
  | .cmpAxImm16 imm => Sys2Proof.Machine.execCmpAxImm16 imm s
  | .incR16 r => Sys2Proof.Machine.execIncR16 r s
  | .decR16 r => Sys2Proof.Machine.execDecR16 r s
  | .pushR16 r => Sys2Proof.Machine.execPushR16 r s
  | .popR16 r => Sys2Proof.Machine.execPopR16 r s
  | .joRel8 rel => Sys2Proof.Machine.execJoRel8 rel s
  | .jnoRel8 rel => Sys2Proof.Machine.execJnoRel8 rel s
  | .jbRel8 rel => Sys2Proof.Machine.execJbRel8 rel s
  | .jnbRel8 rel => Sys2Proof.Machine.execJnbRel8 rel s
  | .jzRel8 rel => Sys2Proof.Machine.execJzRel8 rel s
  | .jnzRel8 rel => Sys2Proof.Machine.execJnzRel8 rel s
  | .jbeRel8 rel => Sys2Proof.Machine.execJbeRel8 rel s
  | .jnbeRel8 rel => Sys2Proof.Machine.execJnbeRel8 rel s
  | .jsRel8 rel => Sys2Proof.Machine.execJsRel8 rel s
  | .jnsRel8 rel => Sys2Proof.Machine.execJnsRel8 rel s
  | .jpRel8 rel => Sys2Proof.Machine.execJpRel8 rel s
  | .jnpRel8 rel => Sys2Proof.Machine.execJnpRel8 rel s
  | .jlRel8 rel => Sys2Proof.Machine.execJlRel8 rel s
  | .jnlRel8 rel => Sys2Proof.Machine.execJnlRel8 rel s
  | .jleRel8 rel => Sys2Proof.Machine.execJleRel8 rel s
  | .jnleRel8 rel => Sys2Proof.Machine.execJnleRel8 rel s
  | .addRm8Imm8 rm imm => Sys2Proof.Machine.execAddRm8Imm8 rm imm s
  | .orRm8Imm8 rm imm => Sys2Proof.Machine.execOrRm8Imm8 rm imm s
  | .adcRm8Imm8 rm imm => Sys2Proof.Machine.execAdcRm8Imm8 rm imm s
  | .sbbRm8Imm8 rm imm => Sys2Proof.Machine.execSbbRm8Imm8 rm imm s
  | .andRm8Imm8 rm imm => Sys2Proof.Machine.execAndRm8Imm8 rm imm s
  | .subRm8Imm8 rm imm => Sys2Proof.Machine.execSubRm8Imm8 rm imm s
  | .xorRm8Imm8 rm imm => Sys2Proof.Machine.execXorRm8Imm8 rm imm s
  | .cmpRm8Imm8 rm imm => Sys2Proof.Machine.execCmpRm8Imm8 rm imm s
  | .addRm16Imm16 rm imm => Sys2Proof.Machine.execAddRm16Imm16 rm imm s
  | .orRm16Imm16 rm imm => Sys2Proof.Machine.execOrRm16Imm16 rm imm s
  | .adcRm16Imm16 rm imm => Sys2Proof.Machine.execAdcRm16Imm16 rm imm s
  | .sbbRm16Imm16 rm imm => Sys2Proof.Machine.execSbbRm16Imm16 rm imm s
  | .andRm16Imm16 rm imm => Sys2Proof.Machine.execAndRm16Imm16 rm imm s
  | .subRm16Imm16 rm imm => Sys2Proof.Machine.execSubRm16Imm16 rm imm s
  | .xorRm16Imm16 rm imm => Sys2Proof.Machine.execXorRm16Imm16 rm imm s
  | .cmpRm16Imm16 rm imm => Sys2Proof.Machine.execCmpRm16Imm16 rm imm s
  | .addRm8Imm8Alias rm imm => Sys2Proof.Machine.execAddRm8Imm8Alias rm imm s
  | .orRm8Imm8Alias rm imm => Sys2Proof.Machine.execOrRm8Imm8Alias rm imm s
  | .adcRm8Imm8Alias rm imm => Sys2Proof.Machine.execAdcRm8Imm8Alias rm imm s
  | .sbbRm8Imm8Alias rm imm => Sys2Proof.Machine.execSbbRm8Imm8Alias rm imm s
  | .andRm8Imm8Alias rm imm => Sys2Proof.Machine.execAndRm8Imm8Alias rm imm s
  | .subRm8Imm8Alias rm imm => Sys2Proof.Machine.execSubRm8Imm8Alias rm imm s
  | .xorRm8Imm8Alias rm imm => Sys2Proof.Machine.execXorRm8Imm8Alias rm imm s
  | .cmpRm8Imm8Alias rm imm => Sys2Proof.Machine.execCmpRm8Imm8Alias rm imm s
  | .addRm16Imm8 rm imm => Sys2Proof.Machine.execAddRm16Imm8 rm imm s
  | .orRm16Imm8 rm imm => Sys2Proof.Machine.execOrRm16Imm8 rm imm s
  | .adcRm16Imm8 rm imm => Sys2Proof.Machine.execAdcRm16Imm8 rm imm s
  | .sbbRm16Imm8 rm imm => Sys2Proof.Machine.execSbbRm16Imm8 rm imm s
  | .andRm16Imm8 rm imm => Sys2Proof.Machine.execAndRm16Imm8 rm imm s
  | .subRm16Imm8 rm imm => Sys2Proof.Machine.execSubRm16Imm8 rm imm s
  | .xorRm16Imm8 rm imm => Sys2Proof.Machine.execXorRm16Imm8 rm imm s
  | .cmpRm16Imm8 rm imm => Sys2Proof.Machine.execCmpRm16Imm8 rm imm s
  | .testRm8R8 rm r => Sys2Proof.Machine.execTestRm8R8 rm r s
  | .testRm16R16 rm r => Sys2Proof.Machine.execTestRm16R16 rm r s
  | .xchgRm8R8 rm r => Sys2Proof.Machine.execXchgRm8R8 rm r s
  | .xchgRm16R16 rm r => Sys2Proof.Machine.execXchgRm16R16 rm r s
  | .movRm8R8 rm r => Sys2Proof.Machine.execMovRm8R8 rm r s
  | .movRm16R16 rm r => Sys2Proof.Machine.execMovRm16R16 rm r s
  | .movR8Rm8 r rm => Sys2Proof.Machine.execMovR8Rm8 r rm s
  | .movR16Rm16 r rm => Sys2Proof.Machine.execMovR16Rm16 r rm s
  | .movRm16Es rm => Sys2Proof.Machine.execMovRm16Es rm s
  | .movRm16Cs rm => Sys2Proof.Machine.execMovRm16Cs rm s
  | .movRm16Ss rm => Sys2Proof.Machine.execMovRm16Ss rm s
  | .movRm16Ds rm => Sys2Proof.Machine.execMovRm16Ds rm s
  | .leaR16M r m => Sys2Proof.Machine.execLeaR16M r m s
  | .movEsRm16 rm => Sys2Proof.Machine.execMovEsRm16 rm s
  | .movSsRm16 rm => Sys2Proof.Machine.execMovSsRm16 rm s
  | .movDsRm16 rm => Sys2Proof.Machine.execMovDsRm16 rm s
  | .popRm16 rm => Sys2Proof.Machine.execPopRm16 rm s
  | .callFarPtr off seg => Sys2Proof.Machine.execCallFarPtr off seg s
  | .movAlMoffs8 off => Sys2Proof.Machine.execMovAlMoffs8 off s
  | .movAxMoffs16 off => Sys2Proof.Machine.execMovAxMoffs16 off s
  | .movMoffs8Al off => Sys2Proof.Machine.execMovMoffs8Al off s
  | .movMoffs16Ax off => Sys2Proof.Machine.execMovMoffs16Ax off s
  | .testAlImm8 imm => Sys2Proof.Machine.execTestAlImm8 imm s
  | .testAxImm16 imm => Sys2Proof.Machine.execTestAxImm16 imm s
  | .movR8Imm8 r imm => Sys2Proof.Machine.execMovR8Imm8 r imm s
  | .movR16Imm16 r imm => Sys2Proof.Machine.execMovR16Imm16 r imm s
  | .retImm16 imm => Sys2Proof.Machine.execRetImm16 imm s
  | .lesR16M r m => Sys2Proof.Machine.execLesR16M r m s
  | .ldsR16M r m => Sys2Proof.Machine.execLdsR16M r m s
  | .movRm8Imm8 rm imm => Sys2Proof.Machine.execMovRm8Imm8 rm imm s
  | .movRm16Imm16 rm imm => Sys2Proof.Machine.execMovRm16Imm16 rm imm s
  | .retfImm16 imm => Sys2Proof.Machine.execRetfImm16 imm s
  | .intImm8 vector => Sys2Proof.Machine.execIntImm8 vector s
  | .rolRm8One rm => Sys2Proof.Machine.execRolRm8One rm s
  | .rorRm8One rm => Sys2Proof.Machine.execRorRm8One rm s
  | .rclRm8One rm => Sys2Proof.Machine.execRclRm8One rm s
  | .rcrRm8One rm => Sys2Proof.Machine.execRcrRm8One rm s
  | .shlRm8One rm => Sys2Proof.Machine.execShlRm8One rm s
  | .shrRm8One rm => Sys2Proof.Machine.execShrRm8One rm s
  | .sarRm8One rm => Sys2Proof.Machine.execSarRm8One rm s
  | .rolRm16One rm => Sys2Proof.Machine.execRolRm16One rm s
  | .rorRm16One rm => Sys2Proof.Machine.execRorRm16One rm s
  | .rclRm16One rm => Sys2Proof.Machine.execRclRm16One rm s
  | .rcrRm16One rm => Sys2Proof.Machine.execRcrRm16One rm s
  | .shlRm16One rm => Sys2Proof.Machine.execShlRm16One rm s
  | .shrRm16One rm => Sys2Proof.Machine.execShrRm16One rm s
  | .sarRm16One rm => Sys2Proof.Machine.execSarRm16One rm s
  | .rolRm8Cl rm => Sys2Proof.Machine.execRolRm8Cl rm s
  | .rorRm8Cl rm => Sys2Proof.Machine.execRorRm8Cl rm s
  | .rclRm8Cl rm => Sys2Proof.Machine.execRclRm8Cl rm s
  | .rcrRm8Cl rm => Sys2Proof.Machine.execRcrRm8Cl rm s
  | .shlRm8Cl rm => Sys2Proof.Machine.execShlRm8Cl rm s
  | .shrRm8Cl rm => Sys2Proof.Machine.execShrRm8Cl rm s
  | .sarRm8Cl rm => Sys2Proof.Machine.execSarRm8Cl rm s
  | .rolRm16Cl rm => Sys2Proof.Machine.execRolRm16Cl rm s
  | .rorRm16Cl rm => Sys2Proof.Machine.execRorRm16Cl rm s
  | .rclRm16Cl rm => Sys2Proof.Machine.execRclRm16Cl rm s
  | .rcrRm16Cl rm => Sys2Proof.Machine.execRcrRm16Cl rm s
  | .shlRm16Cl rm => Sys2Proof.Machine.execShlRm16Cl rm s
  | .shrRm16Cl rm => Sys2Proof.Machine.execShrRm16Cl rm s
  | .sarRm16Cl rm => Sys2Proof.Machine.execSarRm16Cl rm s
  | .aamImm8 imm => Sys2Proof.Machine.execAamImm8 imm s
  | .aadImm8 imm => Sys2Proof.Machine.execAadImm8 imm s
  | .escRm op rm => Sys2Proof.Machine.execEscRm op rm s
  | .loopnzRel8 rel => Sys2Proof.Machine.execLoopnzRel8 rel s
  | .loopzRel8 rel => Sys2Proof.Machine.execLoopzRel8 rel s
  | .loopRel8 rel => Sys2Proof.Machine.execLoopRel8 rel s
  | .jcxzRel8 rel => Sys2Proof.Machine.execJcxzRel8 rel s
  | .inAlImm8 port => Sys2Proof.Machine.execInAlImm8 port s
  | .inAxImm8 port => Sys2Proof.Machine.execInAxImm8 port s
  | .outImm8Al port => Sys2Proof.Machine.execOutImm8Al port s
  | .outImm8Ax port => Sys2Proof.Machine.execOutImm8Ax port s
  | .callRel16 rel => Sys2Proof.Machine.execCallRel16 rel s
  | .jmpRel16 rel => Sys2Proof.Machine.execJmpRel16 rel s
  | .jmpFarPtr off seg => Sys2Proof.Machine.execJmpFarPtr off seg s
  | .jmpRel8 rel => Sys2Proof.Machine.execJmpRel8 rel s
  | .testRm8Imm8 rm imm => Sys2Proof.Machine.execTestRm8Imm8 rm imm s
  | .notRm8 rm => Sys2Proof.Machine.execNotRm8 rm s
  | .negRm8 rm => Sys2Proof.Machine.execNegRm8 rm s
  | .mulRm8 rm => Sys2Proof.Machine.execMulRm8 rm s
  | .imulRm8 rm => Sys2Proof.Machine.execImulRm8 rm s
  | .divRm8 rm => Sys2Proof.Machine.execDivRm8 rm s
  | .idivRm8 rm => Sys2Proof.Machine.execIdivRm8 rm s
  | .testRm16Imm16 rm imm => Sys2Proof.Machine.execTestRm16Imm16 rm imm s
  | .notRm16 rm => Sys2Proof.Machine.execNotRm16 rm s
  | .negRm16 rm => Sys2Proof.Machine.execNegRm16 rm s
  | .mulRm16 rm => Sys2Proof.Machine.execMulRm16 rm s
  | .imulRm16 rm => Sys2Proof.Machine.execImulRm16 rm s
  | .divRm16 rm => Sys2Proof.Machine.execDivRm16 rm s
  | .idivRm16 rm => Sys2Proof.Machine.execIdivRm16 rm s
  | .incRm8 rm => Sys2Proof.Machine.execIncRm8 rm s
  | .decRm8 rm => Sys2Proof.Machine.execDecRm8 rm s
  | .incRm16 rm => Sys2Proof.Machine.execIncRm16 rm s
  | .decRm16 rm => Sys2Proof.Machine.execDecRm16 rm s
  | .callRm16 rm => Sys2Proof.Machine.execCallRm16 rm s
  | .callFarM m => Sys2Proof.Machine.execCallFarM m s
  | .jmpRm16 rm => Sys2Proof.Machine.execJmpRm16 rm s
  | .jmpFarM m => Sys2Proof.Machine.execJmpFarM m s
  | .pushRm16 rm => Sys2Proof.Machine.execPushRm16 rm s
  | .pushEs => Sys2Proof.Machine.execPushEs s
  | .popEs => Sys2Proof.Machine.execPopEs s
  | .pushCs => Sys2Proof.Machine.execPushCs s
  | .pushSs => Sys2Proof.Machine.execPushSs s
  | .popSs => Sys2Proof.Machine.execPopSs s
  | .pushDs => Sys2Proof.Machine.execPushDs s
  | .popDs => Sys2Proof.Machine.execPopDs s
  | .prefixEs => Sys2Proof.Machine.execPrefixEs s
  | .daa => Sys2Proof.Machine.execDaa s
  | .prefixCs => Sys2Proof.Machine.execPrefixCs s
  | .das => Sys2Proof.Machine.execDas s
  | .prefixSs => Sys2Proof.Machine.execPrefixSs s
  | .aaa => Sys2Proof.Machine.execAaa s
  | .prefixDs => Sys2Proof.Machine.execPrefixDs s
  | .aas => Sys2Proof.Machine.execAas s
  | .nop => Sys2Proof.Machine.execNop s
  | .xchgAxCx => Sys2Proof.Machine.execXchgAxCx s
  | .xchgAxDx => Sys2Proof.Machine.execXchgAxDx s
  | .xchgAxBx => Sys2Proof.Machine.execXchgAxBx s
  | .xchgAxSp => Sys2Proof.Machine.execXchgAxSp s
  | .xchgAxBp => Sys2Proof.Machine.execXchgAxBp s
  | .xchgAxSi => Sys2Proof.Machine.execXchgAxSi s
  | .xchgAxDi => Sys2Proof.Machine.execXchgAxDi s
  | .cbw => Sys2Proof.Machine.execCbw s
  | .cwd => Sys2Proof.Machine.execCwd s
  | .wait => Sys2Proof.Machine.execWait s
  | .pushf => Sys2Proof.Machine.execPushf s
  | .popf => Sys2Proof.Machine.execPopf s
  | .sahf => Sys2Proof.Machine.execSahf s
  | .lahf => Sys2Proof.Machine.execLahf s
  | .movsb => Sys2Proof.Machine.execMovsb s
  | .movsw => Sys2Proof.Machine.execMovsw s
  | .cmpsb => Sys2Proof.Machine.execCmpsb s
  | .cmpsw => Sys2Proof.Machine.execCmpsw s
  | .stosb => Sys2Proof.Machine.execStosb s
  | .stosw => Sys2Proof.Machine.execStosw s
  | .lodsb => Sys2Proof.Machine.execLodsb s
  | .lodsw => Sys2Proof.Machine.execLodsw s
  | .scasb => Sys2Proof.Machine.execScasb s
  | .scasw => Sys2Proof.Machine.execScasw s
  | .ret => Sys2Proof.Machine.execRet s
  | .retf => Sys2Proof.Machine.execRetf s
  | .int3 => Sys2Proof.Machine.execInt3 s
  | .into => Sys2Proof.Machine.execInto s
  | .iret => Sys2Proof.Machine.execIret s
  | .xlat => Sys2Proof.Machine.execXlat s
  | .inAlDx => Sys2Proof.Machine.execInAlDx s
  | .inAxDx => Sys2Proof.Machine.execInAxDx s
  | .outDxAl => Sys2Proof.Machine.execOutDxAl s
  | .outDxAx => Sys2Proof.Machine.execOutDxAx s
  | .prefixLock => Sys2Proof.Machine.execPrefixLock s
  | .prefixRepne => Sys2Proof.Machine.execPrefixRepne s
  | .prefixRep => Sys2Proof.Machine.execPrefixRep s
  | .hlt => Sys2Proof.Machine.execHlt s
  | .cmc => Sys2Proof.Machine.execCmc s
  | .clc => Sys2Proof.Machine.execClc s
  | .stc => Sys2Proof.Machine.execStc s
  | .cli => Sys2Proof.Machine.execCli s
  | .sti => Sys2Proof.Machine.execSti s
  | .cld => Sys2Proof.Machine.execCld s
  | .std => Sys2Proof.Machine.execStd s

end Sys2Proof.Machine
end

