-- ==== Sys2Proof/Machine/HostActions.lean ====
section
/-! DEFINITION. What the host may do to the block outside a step (00_scope.md R12): installing devices and interrupt
handlers before the first `reset()`, `reset()`, and raising an interrupt request. -/

namespace Sys2Proof.Machine

/-! ### Before the first `reset()` (R12, R86, R96, R515) -/

/-- Why an install or a setting is turned away (R9, R13, R86, R96, U23). -/
inductive InstallError where
  /-- Some address of the range already has an owner (R86). -/
  | addressOverlap
  /-- Some port of the range already has an owner (R96). -/
  | portOverlap
  /-- The range is not one of the bus's: `start <= end` fails, or `end` is beyond the last address or port (R86, R96). -/
  | badRange
  /-- The block has been reset: installs come before `reset()` (R86, U23). -/
  | afterReset
  /-- `set_v20_support(true)`: a model given `V20_SUPPORT = true` must refuse (R9, U5, D2). -/
  | v20Support
deriving DecidableEq, Repr

/-- The block before its first `reset()`: what is installed, and the images of the ROM devices. It has no other state
yet, and it is no `State`, because installing is configuration and the first state is the one `reset()` produces
(R515). -/
structure Platform where
  memMap : List MemRegion
  ioMap : List IoRegion
  hooks : List Byte
  image : Memory
deriving DecidableEq, Repr

/-- Nothing installed: every address is open bus and every port unmapped (R85, R94). -/
def Platform.bare : Platform := ⟨[], [], [], []⟩

/-- Two inclusive ranges have a number in common. -/
def rangesMeet (a b c d : Nat) : Bool := decide (max a c ≤ min b d)

/-- `install_memory_device(dev, first, last)`: all or nothing (R86). -/
def Platform.installMemoryDevice (p : Platform) (dev : MemDevice) (first last : Nat) : Except InstallError Platform :=
  if last < first ∨ 0xFFFFF < last then .error .badRange
  else if p.memMap.any fun r => rangesMeet r.first r.last first last then .error .addressOverlap
  else .ok { p with memMap := p.memMap ++ [⟨first, last, dev⟩] }

/-- `install_io_device(dev, first, last)`: all or nothing (R96). -/
def Platform.installIoDevice (p : Platform) (dev : IoDevice) (first last : Nat) : Except InstallError Platform :=
  if last < first ∨ 0xFFFF < last then .error .badRange
  else if p.ioMap.any fun r => rangesMeet r.first r.last first last then .error .portOverlap
  else .ok { p with ioMap := p.ioMap ++ [⟨first, last, dev⟩] }

/-- `install_interrupt_handler(vector, handler)`; what the handler does is `hookHandler` (R12, R50, R411). -/
def Platform.installHook (p : Platform) (n : Byte) : Platform := { p with hooks := n :: p.hooks }

/-- `set_v20_support(b)`: the parameter is `Config.v20Support`, and to give it the value without a meaning is refused, with
nothing changed (R9, R12, R162, U5, D2). -/
def Platform.setV20Support (p : Platform) (b : Bool) : Except InstallError Platform :=
  if b = Config.v20Support then .ok p else .error .v20Support

/-- The first `reset()`, at a time of the host's clock: the first state there is (R510, R515). -/
def Platform.reset (p : Platform) (now : Nat) : State :=
  { State.reset with
    mem := p.image
    memMap := p.memMap
    ioMap := p.ioMap
    cga := State.reset.cga.resetRegs now
    hooks := p.hooks
    now := now }

/-! ### After it -/

/-- `install_memory_device` after `reset()` is refused (U23); every `State` is one after `reset()` (R515). -/
def State.installMemoryDevice (_ : State) (_ : MemDevice) (_ _ : Nat) : Except InstallError State := .error .afterReset

/-- `install_io_device` after `reset()` is refused (U23). -/
def State.installIoDevice (_ : State) (_ : IoDevice) (_ _ : Nat) : Except InstallError State := .error .afterReset

/-- `install_interrupt_handler` after `reset()` is refused (R12, U23). -/
def State.installHook (_ : State) (_ : Byte) : Except InstallError State := .error .afterReset

/-- `set_v20_support(b)` after `reset()` and before running, which R12 allows too: as before it (R9, U5, D2). -/
def State.setV20Support (s : State) (b : Bool) : Except InstallError State :=
  if b = Config.v20Support then .ok s else .error .v20Support

/-- `raise_irq(i)` by the host or by a device outside the block (R417, R436). -/
def State.raiseIrq (s : State) (i : Fin 8) : State := { s with pic := s.pic.raiseIrq i }

/-- The history of the platform's devices after their `reset()`: reset after reset is one reset (R510, R512). -/
def resetDevices : List DeviceEvent → List DeviceEvent
  | .reset :: es => .reset :: es
  | es => .reset :: es

/-- `reset()`: the processor, the PIC and the CGA at their reset values; the owner tables, the hooks, the contents of
RAM, ROM and `vram` and the output surface unchanged (R51, R52, R510, R511). The clock and the host go on, the
platform's devices have their own `reset()`, and the run may start again. -/
def State.hostReset (s : State) : State :=
  { State.reset with
    mem := s.mem
    memMap := s.memMap
    ioMap := s.ioMap
    cga := s.cga.resetRegs s.now
    hooks := s.hooks
    now := s.now
    devices := resetDevices s.devices
    inputs := s.inputs
    turns := s.turns
    timeWait := s.timeWait
    draws := s.draws
    cycles := s.cycles }

/-! ### Loading a program -/

/-- A byte put at an address by the host's loader: into the RAM, ROM or CGA that owns the address, or, where none of them
does, into a RAM of that one byte put over what is there. -/
def State.placeByte (s : State) (a : Addr) (v : Byte) : State :=
  match memOwner s.memMap a with
  | some .cga => { s with cga := { s.cga with vram := s.cga.vram.set (vramIndex a) v } }
  | some .ram => { s with mem := s.mem.set a.toNat v }
  | some .rom => { s with mem := s.mem.set a.toNat v }
  | some (.other _) => { s with memMap := ⟨a.toNat, a.toNat, .ram⟩ :: s.memMap, mem := s.mem.set a.toNat v }
  | none => { s with memMap := ⟨a.toNat, a.toNat, .ram⟩ :: s.memMap, mem := s.mem.set a.toNat v }

/-- Bytes put at `CS:IP + k`, `CS:IP + k + 1`, ..., each offset modulo 2^16 (R17). -/
def State.placeCode (s : State) (off : Word) : List Byte → State
  | [] => s
  | b :: bs => (s.placeByte (lin s.cs off) b).placeCode (off + 1) bs

end Sys2Proof.Machine
end

