-- ==== Sys2Proof/Machine/Cycle.lean ====
section
/-! DEFINITION. One turn of the emulation thread's loop (00_scope.md R11): the processor step (60_exceptions.md R400)
and what follows it. Machine/Step.lean only calls it. -/

namespace Sys2Proof.Machine

/-! ### Fetching (R17, R132) -/

/-- `Fetch8()`: the byte at `CS:IP`, and the state after it, with `IP` moved past the byte (R17). -/
def State.fetch8 (s : State) : Byte × State :=
  (s.read8 (lin s.cs s.ip), (s.afterRead8 (lin s.cs s.ip)).setIp (s.ip + 1))

/-- The next n bytes that fetching reads (R17). -/
def State.codeBytes : Nat → State → List Byte
  | 0, _ => []
  | n + 1, s => s.fetch8.1 :: State.codeBytes n s.fetch8.2

/-- The state after n bytes have been fetched (R17). -/
def State.fetched : Nat → State → State
  | 0, s => s
  | n + 1, s => State.fetched n s.fetch8.2

/-- An instruction or a prefix byte fetched, one byte after the other and none beyond its last, given the bytes of it that
are already there; at most n more bytes (R17, R105, R130). -/
def State.fetchInstr : Nat → List Byte → State → Except DecodeError (Instr × State)
  | 0, _, _ => .error .truncated
  | n + 1, bs, s =>
    match decode (bs ++ [s.fetch8.1]) with
    | .ok (i, _) => .ok (i, s.fetch8.2)
    | .error .truncated => State.fetchInstr n (bs ++ [s.fetch8.1]) s.fetch8.2
    | .error (.invalidOpcode op) => .error (.invalidOpcode op)
    | .error (.invalidForm op m) => .error (.invalidForm op m)

/-- An instruction and its prefixes: prefix bytes are gathered until an instruction comes, which runs with `IP` past
its last byte (R132, R400 items 4 to 6). Bytes that are no instruction raise `InvalidOpcode` (R160, R410). -/
def State.runInstr : Nat → State → Result
  | 0, _ => .fault .prefixRunaway
  | fuel + 1, s =>
    match State.fetchInstr maxLength [] s with
    | .error _ => .fault .invalidOpcode
    | .ok (i, u) =>
      if i.isPrefix then
        match exec i u with
        | .next t => State.runInstr fuel t
        | .fault e => .fault e
        | .refused e => .refused e
      else exec i u

/-- How many prefix bytes a step fetches before it counts as stuck (R526). -/
def prefixLimit : Nat := 65536

/-! ### The processor step (R400) -/

/-- The interrupt check: at most one request acknowledged, its entry performed, `Halt` cleared (R402). -/
def State.interruptCheck (s : State) : State :=
  if s.flags.ifl then
    match s.pic.nextPending with
    | none => s
    | some v => { { s with pic := (s.pic.ack v).2 }.interrupt (s.pic.ack v).1 with halt := false }
  else s

/-- The start of an instruction: nothing pending, and its offset noted (R43, R44). -/
def State.begun (s : State) : State := { s with pend := { noPending with start := s.ip } }

/-- The end of an instruction that began with `TF = tf`: nothing pending, and, where the single-step trap exists, its
entry (R400 item 7, R412). -/
def State.finished (s : State) (tf : Bool) : State :=
  let t := { s with pend := noPending }
  if tf && Config.singleStepTrap && !t.ended then { t.interrupt 1 with halt := false } else t

/-- Items 3 to 7 of a step: a halted step does nothing (R403), otherwise one instruction runs. -/
def State.instrPhase (s : State) : Result :=
  if s.halt then .next s
  else
    match State.runInstr prefixLimit s.begun with
    | .next t => .next (t.finished s.flags.tf)
    | .fault e => .fault e
    | .refused e => .refused e

/-- `step()` of the processor (R400); the run is over after `CpuHalt` (R409). -/
def State.procStep (s : State) : Result :=
  if Config.v20Support then .refused .v20Support
  else if s.ended then .refused .afterCpuHalt
  else if Config.debuggerPresent && s.debug then .refused .debugBreak
  else s.interruptCheck.instrPhase

/-! ### The turn of the loop (R11, R12) -/

/-- A turn of the host that nothing lists: requests as drawn, and a clock that moves when its wait is over (R471, U16). -/
def State.drawnInput (s : State) : HostInput :=
  ⟨Config.hostIrqs s.turns, if s.timeWait = 0 then Config.elapsedLessOne s.turns + 1 else 0⟩

/-- What the host does at the next turn: as listed, and where nothing is listed as drawn. -/
def State.nextInput (s : State) : HostInput := s.inputs.headD s.drawnInput

/-- The wait of the host's clock after a drawn turn: one turn less, or a new wait when it was over. -/
def State.waited (s : State) : Nat := if s.timeWait = 0 then Config.timeGap (s.turns + 1) else s.timeWait - 1

/-- The turn taken, and its interrupt requests raised (R12, R436). -/
def State.takeInput (s : State) : State :=
  { s with
    inputs := s.inputs.tail
    turns := s.turns + 1
    timeWait := if s.inputs.isEmpty then s.waited else s.timeWait
    pic := s.pic.raiseIrqs s.nextInput.irqs }

/-- The cycle count that comes from a draw: a positive number (R421). -/
def State.drawnCycles (s : State) : Nat := Config.cyclesLessOne s.draws + 1

/-- The cycle count that a processor step returns with its outcome, `CpuHalt` among them: a draw (R12, R400, R421). -/
def State.counted (s : State) : State := { s with cycles := s.drawnCycles, draws := s.draws + 1 }

/-- The peripherals' `step(cycles)` after the processor's, with the count it returned: the PIC does nothing (R441), the CGA
counts cycles and scanlines at the host's clock (R471, R473), and the platform's devices have theirs (R11). -/
def State.stepPeripherals (s : State) (elapsed : Nat) : State :=
  { s with
    now := s.now + elapsed
    cga := s.cga.step s.cycles (s.now + elapsed)
    devices := .step s.cycles :: s.devices }

/-- The moment at the end of a turn, at which the render task may tick (R480). -/
def State.renderMoment (s : State) : State := { s with cga := s.cga.moment }

/-- What follows the instruction in the turn, given the time that has passed: the count returned, the peripherals' steps,
which a run that is over has no more of (R409), and the moment after the turn's last byte operation (R480). -/
def State.afterStep (s : State) (elapsed : Nat) : State :=
  (if s.ended then s.counted else s.counted.stepPeripherals elapsed).renderMoment

/-- One turn of the emulation thread's loop. -/
def State.turn (s : State) : Result :=
  match s.takeInput.procStep with
  | .next t => .next (t.afterStep s.nextInput.elapsedNs)
  | .fault e => .fault e
  | .refused e => .refused e

/-! ### What a step hands the host (R12, R13, R400) -/

/-- The outcome of a processor step (R13, R400). -/
inductive StepOutcome where
  | success | cpuHalt | invalidOpcode | debugBreak
deriving DecidableEq, Repr

/-- The pair `(cycles, outcome)` that the processor's step of the next turn hands the host; there is none when the step
does not return (R526) and when there is no step (R9, R409). -/
def State.handed (s : State) : Option (Nat × StepOutcome) :=
  match s.turn with
  | .next t => some (t.cycles, if t.ended then .cpuHalt else .success)
  | .fault .invalidOpcode => some (s.drawnCycles, .invalidOpcode)
  | .fault .prefixRunaway => none
  | .refused e => if e = .debugBreak then some (s.drawnCycles, .debugBreak) else none

end Sys2Proof.Machine
end

