-- ==== Sys2Proof/Machine/Step.lean ====
section
/-! DEFINITION. The step of the machine, and an instruction placed where the step fetches the next one. -/

namespace Sys2Proof.Machine

/-- One step: the host's inputs of this turn, one `step()` of the processor, one `step(cycles)` of the peripherals, and
the ticks of the render task that fall in it (R11, R400, R480). -/
def step (s : State) : Host.Outcome State Fault Refusal := s.turn

/-- The state with an instruction of spec/opcode_table.json at `CS:IP`, and a processor that will run it: not halted,
the run not over, and no request that the step would acknowledge first. -/
def State.withFetchWord (s : State) (nbits w : Nat) : State :=
  { s.placeCode s.ip (tableBytes nbits w) with
    halt := false, ended := false, inputs := [⟨[], 0⟩]
    pic := { s.pic with irr := if s.flags.ifl then 0 else s.pic.irr } }

end Sys2Proof.Machine
end

