-- ==== Sys2Proof/Safety.lean ====
section
/-! DEFINITION. The terms in which claims are made: the invariant of the machine, what an instruction leaves unchanged,
what a destination holds after it, and the arithmetic meaning of the flags (10_state.md R38; 41_arithmetic.md R240 to
R242), written over integers and not over the model's own flag functions. -/

namespace Sys2Proof.Machine

/-! ### The invariant -/

/-- What the CGA keeps: the video memory in canonical form; the status bits that are never set read 0 and bit 3 says
whether the scanline is in retrace (R469, R472); the cursor fields agree with the CRT registers they are written
through (R466); the scanline clock is not ahead of the host's; a rendered surface has its full size (R492). -/
def CgaSound (c : Cga) (now : Nat) : Prop :=
  c.vram.vramWf = true ∧ c.status &&& 0xF6 = 0 ∧ c.status.getLsbD 3 = decide (479 < c.scanline.val) ∧
    c.cursorVisible = !c.crtReg[0x0A].getLsbD 5 ∧ c.cursorPos = mkWord c.crtReg[0x0F] c.crtReg[0x0E] ∧
    c.lastScanlineNs ≤ now ∧ (c.surface.length = 0 ∨ c.surface.length = surfaceSize)

/-- What the memory and the devices keep: canonical memory, and a vector base that is a multiple of 8 (R47). -/
def DeviceSound (s : State) : Prop := s.mem.wf = true ∧ s.pic.base &&& 7 = 0 ∧ CgaSound s.cga s.now

/-- The invariant of the machine between steps: sound devices, no prefix pending (R43, R44), and interrupts enabled
while halted (R403). -/
def Inv (s : State) : Prop := DeviceSound s ∧ s.pend = noPending ∧ (s.halt = true → s.flags.ifl = true)

/-! ### Completion -/

/-- The instruction runs: `exec` answers a next state, and that state satisfies `P`. -/
def Completes (i : Instr) (s : State) (P : State → Prop) : Prop := ∃ t, exec i s = .next t ∧ P t

/-! ### Frames -/

/-- Two linear addresses name one byte: they are equal, or both belong to the CGA and agree in their low 14 bits
(R461). -/
def SameCell (s : State) (a b : Addr) : Prop :=
  a = b ∨ (memOwner s.memMap a = some .cga ∧ memOwner s.memMap b = some .cga ∧ vramIndex a = vramIndex b)

/-- The address belongs to a device of the platform that the block does not describe (R10, R84). -/
def PlatformOwns (s : State) (a : Addr) : Prop := ∃ d, memOwner s.memMap a = some (.other d)

/-- Every byte of memory but the stored ones reads as before; a byte of the platform's own devices does if nothing has
happened to them, and otherwise it is theirs to say (R10, R105). -/
def MemoryOutside (s t : State) (stored : List Addr) : Prop :=
  ∀ a, (∀ b ∈ stored, ¬SameCell s a b) → (PlatformOwns s a → t.devices = s.devices) → t.read8 a = s.read8 a

/-- What has happened to the platform's devices goes on from what had. -/
def HistoryGrows (s t : State) : Prop := ∃ es, t.devices = es ++ s.devices

/-- Everything but the general registers, the segment registers, `IP`, the flags, the memory contents and the count of
draws is unchanged: the prefixes, `Halt`, `Debug`, the bus tables, the PIC, the CGA's registers, the hooks, the clock and
the host's turns. When no stored byte is the CGA's, its memory is unchanged too, and with it all that the render task
writes and its clock. The platform's devices are only added to, and not at all where none is on the memory bus. -/
def SystemSame (s t : State) (stored : List Addr) : Prop :=
  t =
      { s with
        regs := t.regs, cs := t.cs, ds := t.ds, es := t.es, ss := t.ss, ip := t.ip, flags := t.flags, mem := t.mem
        cga := { s.cga.withRender t.cga with vram := t.cga.vram, tickWait := t.cga.tickWait, ticks := t.cga.ticks }
        devices := t.devices
        draws := t.draws } ∧
    ((∀ b ∈ stored, memOwner s.memMap b ≠ some .cga) → t.cga = s.cga) ∧ HistoryGrows s t ∧
    ((∀ a, ¬PlatformOwns s a) → t.devices = s.devices)

/-- The four segment registers are unchanged. -/
def SegmentsSame (s t : State) : Prop := t.cs = s.cs ∧ t.ds = s.ds ∧ t.es = s.es ∧ t.ss = s.ss

/-- Every 16-bit register but those listed is unchanged. -/
def RegistersOutside (s t : State) (written : List Reg16) : Prop := ∀ r, r ∉ written → t.get16 r = s.get16 r

/-- Every 8-bit register but those listed is unchanged, and so are the registers that have no halves. -/
def HalvesOutside (s t : State) (written : List Reg8) : Prop :=
  (∀ r, r ∉ written → t.get8 r = s.get8 r) ∧
    t.regs.sp = s.regs.sp ∧ t.regs.bp = s.regs.bp ∧ t.regs.si = s.regs.si ∧ t.regs.di = s.regs.di

/-- The frame of an instruction that writes 16-bit registers and memory bytes and goes on to the next instruction. -/
def WordFrame (s t : State) (written : List Reg16) (stored : List Addr) : Prop :=
  RegistersOutside s t written ∧ SegmentsSame s t ∧ t.ip = s.ip ∧ MemoryOutside s t stored ∧ SystemSame s t stored

/-- The frame of an instruction that writes 8-bit registers and memory bytes and goes on to the next instruction. -/
def ByteFrame (s t : State) (written : List Reg8) (stored : List Addr) : Prop :=
  HalvesOutside s t written ∧ SegmentsSame s t ∧ t.ip = s.ip ∧ MemoryOutside s t stored ∧ SystemSame s t stored

/-- The frame of a control transfer: as `WordFrame`, but `CS` and `IP` may change. -/
def TransferFrame (s t : State) (written : List Reg16) (stored : List Addr) : Prop :=
  RegistersOutside s t written ∧ t.ds = s.ds ∧ t.es = s.es ∧ t.ss = s.ss ∧ MemoryOutside s t stored ∧
    SystemSame s t stored

/-! ### What a destination holds -/

/-- The address belongs to a device that keeps what is written: RAM or the CGA (R87, R462). -/
def Keeps (s : State) (a : Addr) : Bool := memOwner s.memMap a == some .ram || memOwner s.memMap a == some .cga

/-- Among what has happened to the platform's devices between two states. -/
def Happened (s t : State) (e : DeviceEvent) : Prop := ∃ es, t.devices = es ++ s.devices ∧ e ∈ es

/-- A byte stored at an address: it reads back where the device keeps it, a device of the platform has been given it, and
in ROM and on the open bus the byte reads as before (R85, R87, R89). -/
def ByteStored (s t : State) (a : Addr) (v : Byte) : Prop :=
  match memOwner s.memMap a with
  | some .ram => t.read8 a = v
  | some .cga => t.read8 a = v
  | some (.other d) => Happened s t (.write d a v)
  | some .rom => t.read8 a = s.read8 a
  | none => t.read8 a = s.read8 a

/-- A word stored at an address: low byte there, high byte at the next address modulo 2^20 (R16, R91). -/
def WordStored (s t : State) (a : Addr) (v : Word) : Prop :=
  ByteStored s t a (loByte v) ∧ ByteStored s t (a + 1) (hiByte v)

/-- A byte destination holds a value. -/
def Holds8 (s t : State) (p : Place Reg8) (v : Byte) : Prop :=
  match p with
  | .reg r => t.get8 r = v
  | .mem a => ByteStored s t a v

/-- A word destination holds a value. -/
def Holds16 (s t : State) (p : Place Reg16) (v : Word) : Prop :=
  match p with
  | .reg r => t.get16 r = v
  | .mem a => WordStored s t a v

/-- The register a place is, if it is one. -/
def placeRegs {ρ : Type} : Place ρ → List ρ
  | .reg r => [r]
  | .mem _ => []

/-- The byte of memory a byte place is, if it is one. -/
def cells8 : Place Reg8 → List Addr
  | .reg _ => []
  | .mem a => [a]

/-- The bytes of memory a word place is, if it is one. -/
def cells16 : Place Reg16 → List Addr
  | .reg _ => []
  | .mem a => [a, a + 1]

/-- A byte destination written, and nothing else but flags. -/
def PutsByte (s t : State) (p : Place Reg8) (v : Byte) : Prop :=
  Holds8 s t p v ∧ ByteFrame s t (placeRegs p) (cells8 p)

/-- A word destination written, and nothing else but flags. -/
def PutsWord (s t : State) (p : Place Reg16) (v : Word) : Prop :=
  Holds16 s t p v ∧ WordFrame s t (placeRegs p) (cells16 p)

/-- Nothing written but flags. -/
def PutsNothing (s t : State) : Prop := WordFrame s t [] []

/-! ### The flags over integers -/

/-- The trap, interrupt and direction flags are unchanged. -/
def ControlFlagsSame (f g : Flags) : Prop := g.tf = f.tf ∧ g.ifl = f.ifl ∧ g.df = f.df

/-- The number of one bits in the low byte of a result. -/
def lowOnes {w : Nat} (res : BitVec w) : Nat := ((List.range 8).filter fun k => res.getLsbD k).length

/-- Sign, zero and parity of a result (R21). -/
def ResultFlags {w : Nat} (g : Flags) (res : BitVec w) : Prop :=
  g.sf = decide (res.toInt < 0) ∧ g.zf = decide (res.toNat = 0) ∧ g.pf = decide (lowOnes res % 2 = 0)

/-- An integer is outside the signed range of width w. -/
def OutOfRange (w : Nat) (n : Int) : Bool := decide (n < -2 ^ (w - 1)) || decide (2 ^ (w - 1) ≤ n)

/-- The result and all six status flags of `a + b + cin` (R240). -/
def AddOutcome {w : Nat} (f g : Flags) (a b : BitVec w) (cin : Bool) (res : BitVec w) : Prop :=
  res.toNat = (a.toNat + b.toNat + cin.toNat) % 2 ^ w ∧
    g.cf = decide (2 ^ w ≤ a.toNat + b.toNat + cin.toNat) ∧
    g.af = decide (15 < a.toNat % 16 + b.toNat % 16 + cin.toNat) ∧
    g.ofl = OutOfRange w (a.toInt + b.toInt + cin.toNat) ∧ ResultFlags g res ∧ ControlFlagsSame f g

/-- The result and all six status flags of `a - b - bin` (R241). -/
def SubOutcome {w : Nat} (f g : Flags) (a b : BitVec w) (bin : Bool) (res : BitVec w) : Prop :=
  (res.toNat : Int) = ((a.toNat : Int) - b.toNat - bin.toNat) % 2 ^ w ∧
    g.cf = decide (a.toNat < b.toNat + bin.toNat) ∧
    g.af = decide (a.toNat % 16 < b.toNat % 16 + bin.toNat) ∧
    g.ofl = OutOfRange w (a.toInt - b.toInt - bin.toNat) ∧ ResultFlags g res ∧ ControlFlagsSame f g

/-- The flags of a logical result; `AF` may be anything (R280). -/
def LogicOutcome {w : Nat} (f g : Flags) (res : BitVec w) : Prop :=
  g.cf = false ∧ g.ofl = false ∧ ResultFlags g res ∧ ControlFlagsSame f g

/-! ### The forms of the ALU operations (R266) -/

/-- The five byte forms of an ALU operation, each with its destination and its operands. -/
def ForByteForms (s : State) (op : AluOp) (P : Instr → Place Reg8 → Byte → Byte → Prop) : Prop :=
  (∀ rm r, P (aluRm8R8 op rm r) (s.place rm) (s.rm8 rm) (s.get8 r)) ∧
    (∀ r rm, P (aluR8Rm8 op r rm) (.reg r) (s.get8 r) (s.rm8 rm)) ∧
    (∀ imm, P (aluAlImm8 op imm) (.reg .al) (s.get8 .al) imm) ∧
    (∀ rm imm, P (aluRm8Imm8 op rm imm) (s.place rm) (s.rm8 rm) imm) ∧
    ∀ rm imm, P (aluRm8Imm8Alias op rm imm) (s.place rm) (s.rm8 rm) imm

/-- The five word forms of an ALU operation; the immediate of opcode `83h` is sign-extended. -/
def ForWordForms (s : State) (op : AluOp) (P : Instr → Place Reg16 → Word → Word → Prop) : Prop :=
  (∀ rm r, P (aluRm16R16 op rm r) (s.place rm) (s.rm16 rm) (s.get16 r)) ∧
    (∀ r rm, P (aluR16Rm16 op r rm) (.reg r) (s.get16 r) (s.rm16 rm)) ∧
    (∀ imm, P (aluAxImm16 op imm) (.reg .ax) (s.get16 .ax) imm) ∧
    (∀ rm imm, P (aluRm16Imm16 op rm imm) (s.place rm) (s.rm16 rm) imm) ∧
    ∀ rm imm, P (aluRm16Imm8 op rm imm) (s.place rm) (s.rm16 rm) (imm.signExtend 16)

/-! ### Taking an interrupt -/

/-- The state in which the three words of an interrupt frame have been pushed (R404). -/
def framePushed (s : State) : State := ((s.push16 s.flags.image).push16 s.cs).push16 s.ip

/-- An interrupt entry at vector n: three words pushed, `IF` and `TF` cleared, `CS:IP` from the vector table as it reads
after the pushes, the offset first (R404). -/
def Entered (s t : State) (n : Byte) : Prop :=
  t.regs.sp = s.regs.sp - 6 ∧
    WordStored s t (lin s.ss (s.regs.sp - 2)) s.flags.image ∧
    WordStored s t (lin s.ss (s.regs.sp - 4)) s.cs ∧
    WordStored s t (lin s.ss (s.regs.sp - 6)) s.ip ∧
    t.ip = (framePushed s).read16 (BitVec.ofNat 20 (4 * n.toNat)) ∧
    t.cs =
      ((framePushed s).afterRead16 (BitVec.ofNat 20 (4 * n.toNat))).read16 (BitVec.ofNat 20 (4 * n.toNat + 2)) ∧
    t.flags = { s.flags with ifl := false, tf := false }

/-- The six bytes an interrupt entry stores. -/
def entryCells (s : State) : List Addr :=
  [lin s.ss (s.regs.sp - 2), lin s.ss (s.regs.sp - 2) + 1, lin s.ss (s.regs.sp - 4), lin s.ss (s.regs.sp - 4) + 1,
    lin s.ss (s.regs.sp - 6), lin s.ss (s.regs.sp - 6) + 1]

/-! ### Instructions of one shape -/

/-- The instruction writes a byte destination and nothing else. -/
def WritesByte (i : Instr) (s : State) (p : Place Reg8) (v : Byte) : Prop :=
  Completes i s fun t => PutsByte s t p v ∧ t.flags = s.flags ∧ t.draws = s.draws

/-- The instruction writes a word destination and nothing else. -/
def WritesWord (i : Instr) (s : State) (p : Place Reg16) (v : Word) : Prop :=
  Completes i s fun t => PutsWord s t p v ∧ t.flags = s.flags ∧ t.draws = s.draws

/-- The instruction pushes a word and does nothing else (R18). -/
def PushesWord (i : Instr) (s : State) (v : Word) : Prop :=
  Completes i s fun t =>
    WordStored s t (lin s.ss (s.regs.sp - 2)) v ∧ t.regs = { s.regs with sp := s.regs.sp - 2 } ∧ SegmentsSame s t ∧
      t.ip = s.ip ∧ t.flags = s.flags ∧ t.draws = s.draws ∧
      MemoryOutside s t [lin s.ss (s.regs.sp - 2), lin s.ss (s.regs.sp - 2) + 1] ∧
      SystemSame s t [lin s.ss (s.regs.sp - 2), lin s.ss (s.regs.sp - 2) + 1]

/-- The instruction reads the byte of a port into `AL`, with the port's side effect on its device (R95, R98). -/
def ReadsPortByte (i : Instr) (s : State) (p : Word) : Prop :=
  Completes i s fun t =>
    t.get8 .al = (s.portIn8 p).1 ∧ HalvesOutside s t [.al] ∧
      t = { (s.portIn8 p).2 with regs := t.regs }

/-- The instruction reads the bytes of a port and then of the next one, modulo 2^16, into `AL` and `AH` (R19, R100). -/
def ReadsPortWord (i : Instr) (s : State) (p : Word) : Prop :=
  Completes i s fun t =>
    t.get8 .al = (s.portIn8 p).1 ∧ t.get8 .ah = ((s.portIn8 p).2.portIn8 (p + 1)).1 ∧ RegistersOutside s t [.ax] ∧
      t = { ((s.portIn8 p).2.portIn8 (p + 1)).2 with regs := t.regs }

/-- The instruction writes `AL` to a port: nothing but the devices can change, and no memory byte (R95, R99). -/
def WritesPortByte (i : Instr) (s : State) (p : Word) : Prop :=
  Completes i s fun t =>
    t = s.portOut8 p (s.get8 .al) ∧ MemoryOutside s t [] ∧
      t = { s with pic := t.pic, cga := t.cga, devices := t.devices }

/-- The instruction writes `AL` to a port and then `AH` to the next one, modulo 2^16 (R19, R100). -/
def WritesPortWord (i : Instr) (s : State) (p : Word) : Prop :=
  Completes i s fun t =>
    t = (s.portOut8 p (s.get8 .al)).portOut8 (p + 1) (s.get8 .ah) ∧ MemoryOutside s t [] ∧
      t = { s with pic := t.pic, cga := t.cga, devices := t.devices }

/-- The word at the top of the stack (R18). -/
def stackTop (s : State) : Word := s.read16 (lin s.ss s.regs.sp)

/-- The state in which the k words from the top of the stack upward have been read, in that order (R18, R105). -/
def stackRead (s : State) : Nat → State
  | 0 => s
  | k + 1 => (stackRead s k).afterRead16 (lin s.ss (s.regs.sp + BitVec.ofNat 16 (2 * k)))

/-- The word k words above the top of the stack, read after those below it (R18). -/
def stackWord (s : State) (k : Nat) : Word :=
  (stackRead s k).read16 (lin s.ss (s.regs.sp + BitVec.ofNat 16 (2 * k)))

/-- The segment of a data operand: `DS`, or the pending override (R143). -/
def dataSegment (s : State) : Word :=
  match s.pend.ovr with
  | none => s.ds
  | some q => s.getS q

/-- The instruction jumps by a signed displacement when the condition holds, and otherwise does nothing (R146). -/
def JumpsWhen (i : Instr) (s : State) (c : Bool) (d : Int) : Prop :=
  Completes i s fun t =>
    t = { s with ip := t.ip } ∧ (t.ip.toNat : Int) = if c then ((s.ip.toNat : Int) + d) % 65536 else s.ip.toNat

/-- The instruction reads its operand, which leaves the state u, enters interrupt n from there, and changes nothing else
(R105, R267, R404). -/
def EntersAfter (i : Instr) (s u : State) (n : Byte) : Prop :=
  Completes i s fun t => Entered u t n ∧ TransferFrame s t [.sp] (entryCells s) ∧ t.draws = s.draws

/-- The instruction enters interrupt n, and changes nothing else (R404). -/
def EntersInterrupt (i : Instr) (s : State) (n : Byte) : Prop := EntersAfter i s s n

/-! ### Invalid encodings (R160) -/

/-- The list of R160: opcode bytes without a meaning, and opcode and ModR/M bytes whose combination has none. -/
def invalidEncoding (op m : Byte) : Bool :=
  let o := op.toNat
  let md := m.toNat / 64
  let reg := m.toNat / 8 % 8
  (o = 0x0F || (0x60 ≤ o && o ≤ 0x6F) || o = 0xC0 || o = 0xC1 || o = 0xC8 || o = 0xC9 || o = 0xD6 || o = 0xF1) ||
    ((o = 0x8C || o = 0x8E) && 4 ≤ reg) || (o = 0x8E && reg = 1) ||
    ((o = 0x8F || o = 0xC6 || o = 0xC7) && reg ≠ 0) || (0xD0 ≤ o && o ≤ 0xD3 && reg = 6) ||
    ((o = 0xF6 || o = 0xF7) && reg = 1) || (o = 0xFE && 2 ≤ reg) || (o = 0xFF && reg = 7) ||
    (o = 0xFF && (reg = 3 || reg = 5) && md = 3) || ((o = 0x8D || o = 0xC4 || o = 0xC5) && md = 3)

/-! ### Shifts and rotates in closed form (R294) -/

/-- The operand and `CF` after n single-bit steps, n at least 1 (R294). -/
def closedShift {w : Nat} (op : ShiftOp) (v : BitVec w) (cf : Bool) (n : Nat) : BitVec w × Bool :=
  match op with
  | .shl => (v <<< n, decide (n ≤ w) && v.getLsbD (w - n))
  | .shr => (v >>> n, decide (n ≤ w) && v.getLsbD (n - 1))
  | .sar => (v.sshiftRight n, if n ≤ w - 1 then v.getLsbD (n - 1) else v.msb)
  | .rol => (v.rotateLeft n, (v.rotateLeft n).getLsbD 0)
  | .ror => (v.rotateRight n, (v.rotateRight n).msb)
  | .rcl =>
    let x := (BitVec.ofBool cf ++ v).rotateLeft n
    (x.setWidth w, x.msb)
  | .rcr =>
    let x := (BitVec.ofBool cf ++ v).rotateRight n
    (x.setWidth w, x.msb)

/-- `OF` after a count of 1, from the operand before and after and `CF` after (R287 to R293). -/
def closedOverflow {w : Nat} (op : ShiftOp) (v v' : BitVec w) (cf' : Bool) : Bool :=
  match op with
  | .shl => v'.msb != cf'
  | .rol => v'.msb != cf'
  | .rcl => v'.msb != cf'
  | .shr => decide (2 ^ (w - 1) ≤ v.toNat)
  | .sar => false
  | .ror => v'.msb != v'.getLsbD (w - 2)
  | .rcr => v'.msb != v'.getLsbD (w - 2)

/-- The flags of a shift by n (R286): none written when n is 0; else `CF`, `SF`, `ZF`, `PF`, and `OF` when n is 1. -/
def ShiftFlags {w : Nat} (f g : Flags) (op : ShiftOp) (v : BitVec w) (n : Nat) : Prop :=
  if n = 0 then g = f
  else
    g.cf = (closedShift op v f.cf n).2 ∧ ResultFlags g (closedShift op v f.cf n).1 ∧
      (n = 1 → g.ofl = closedOverflow op v (closedShift op v f.cf 1).1 (closedShift op v f.cf 1).2) ∧
      ControlFlagsSame f g

/-- The flags of a rotate by n (R286): none written when n is 0; else `CF`, and `OF` when n is 1. -/
def RotateFlags {w : Nat} (f g : Flags) (op : ShiftOp) (v : BitVec w) (n : Nat) : Prop :=
  if n = 0 then g = f
  else
    g.cf = (closedShift op v f.cf n).2 ∧ g.sf = f.sf ∧ g.zf = f.zf ∧ g.pf = f.pf ∧ g.af = f.af ∧
      (n = 1 → g.ofl = closedOverflow op v (closedShift op v f.cf 1).1 (closedShift op v f.cf 1).2) ∧
      ControlFlagsSame f g

/-- The operand after a shift or rotate by n: unchanged when n is 0. -/
def shifted {w : Nat} (op : ShiftOp) (v : BitVec w) (cf : Bool) (n : Nat) : BitVec w :=
  if n = 0 then v else (closedShift op v cf n).1

/-! ### Strings (R310) -/

/-- An index moved by one element of n bytes: up when `DF = 0`, down when `DF = 1`, modulo 2^16. -/
def moved (s : State) (x n : Word) : Word := if s.flags.df then x - n else x + n

/-- The source element's linear address: `DS:SI` or the override's segment. -/
def sourceAt (s : State) : Addr := lin (dataSegment s) s.regs.si

/-- The destination element's linear address: `ES:DI`, whatever the override. -/
def destinationAt (s : State) : Addr := lin s.es s.regs.di

/-- The string instructions that compare (R311). -/
def comparesElements : Instr → Bool
  | .cmpsb | .cmpsw | .scasb | .scasw => true
  | _ => false

/-- The ten string instructions (R310). -/
def isString : Instr → Bool
  | .movsb | .movsw | .cmpsb | .cmpsw | .stosb | .stosw | .lodsb | .lodsw | .scasb | .scasw => true
  | _ => false

/-! ### Which instructions may write what -/

/-- The instructions that may change `CS`: far transfers, interrupts and returns, and what can raise a divide error
(R36, R525). -/
def mayWriteCs : Instr → Bool
  | .callFarPtr _ _ | .callFarM _ | .jmpFarPtr _ _ | .jmpFarM _ | .retf | .retfImm16 _ | .iret => true
  | .intImm8 _ | .int3 | .into | .divRm8 _ | .divRm16 _ | .idivRm8 _ | .idivRm16 _ | .aamImm8 _ => true
  | _ => false

/-- The instructions that may set `TF` (R39). -/
def maySetTf : Instr → Bool
  | .popf | .iret => true
  | _ => false

/-- The segment override a prefix byte names (R131). -/
def overrideOf : Instr → Option SReg
  | .prefixEs => some .es
  | .prefixCs => some .cs
  | .prefixSs => some .ss
  | .prefixDs => some .ds
  | _ => none

/-- The repeat a prefix byte names (R131). -/
def repeatOf : Instr → Option Rep
  | .prefixRepne => some .repne
  | .prefixRep => some .rep
  | _ => none

/-- What a run of prefix bytes leaves pending: the last override, the last repeat, and `LOCK` if there was one (R132). -/
def gathered (p : Pending) (ps : List Instr) : Pending where
  ovr := (ps.filterMap overrideOf).getLast?.or p.ovr
  rep := (ps.filterMap repeatOf).getLast?.or p.rep
  lock := p.lock || ps.contains .prefixLock
  start := p.start

/-! ### What an instruction does on the buses (R105; the history of the platform's devices is log entry 36) -/

/-- What `BusWrite8(a, v)` does to the platform's devices (R89). -/
def writeEvents (map : List MemRegion) (a : Addr) (v : Byte) : List DeviceEvent :=
  match memOwner map a with
  | some (.other d) => [.write d a v]
  | some .ram => []
  | some .rom => []
  | some .cga => []
  | none => []

/-- What `MemWrite(a, 2, v)` does to them, newest first (R16). -/
def wordWriteEvents (map : List MemRegion) (a : Addr) (v : Word) : List DeviceEvent :=
  writeEvents map (a + 1) (hiByte v) ++ writeEvents map a (loByte v)

/-- What writing a byte to a place does to them. -/
def storeEvents8 (map : List MemRegion) (p : Place Reg8) (v : Byte) : List DeviceEvent :=
  match p with
  | .reg _ => []
  | .mem a => writeEvents map a v

/-- What writing a word to a place does to them. -/
def storeEvents16 (map : List MemRegion) (p : Place Reg16) (v : Word) : List DeviceEvent :=
  match p with
  | .reg _ => []
  | .mem a => wordWriteEvents map a v

/-- What reading the byte of a port does to them (R93, R98). -/
def portInEvents (map : List IoRegion) (p : Word) : List DeviceEvent :=
  match ioOwner map p with
  | some (.other d) => [.portIn d p]
  | some .pic => []
  | some .cga => []
  | none => []

/-- What writing a byte to a port does to them (R93, R99). -/
def portOutEvents (map : List IoRegion) (p : Word) (v : Byte) : List DeviceEvent :=
  match ioOwner map p with
  | some (.other d) => [.portOut d p v]
  | some .pic => []
  | some .cga => []
  | none => []

/-- What a word `IN` does to them, newest first: port p, then the next one modulo 2^16 (R100). -/
def wordInEvents (map : List IoRegion) (p : Word) : List DeviceEvent := portInEvents map (p + 1) ++ portInEvents map p

/-- What a word `OUT` of `AX` does to them, newest first (R100). -/
def wordOutEvents (map : List IoRegion) (p : Word) (v : Word) : List DeviceEvent :=
  portOutEvents map (p + 1) (hiByte v) ++ portOutEvents map p (loByte v)

/-- A byte operand read. -/
def reads8 (s : State) (rm : RM Reg8) : List DeviceEvent := loadEvents8 s.memMap (s.place rm)

/-- A word operand read. -/
def reads16 (s : State) (rm : RM Reg16) : List DeviceEvent := loadEvents16 s.memMap (s.place rm)

/-- A byte operand written. -/
def writes8 (s : State) (rm : RM Reg8) (v : Byte) : List DeviceEvent := storeEvents8 s.memMap (s.place rm) v

/-- A word operand written. -/
def writes16 (s : State) (rm : RM Reg16) (v : Word) : List DeviceEvent := storeEvents16 s.memMap (s.place rm) v

/-- A byte operand read, and then written with a function of what was read. -/
def updates8 (s : State) (rm : RM Reg8) (f : Byte → Byte) : List DeviceEvent := writes8 s rm (f (s.rm8 rm)) ++ reads8 s rm

/-- A word operand read, and then written with a function of what was read. -/
def updates16 (s : State) (rm : RM Reg16) (f : Word → Word) : List DeviceEvent :=
  writes16 s rm (f (s.rm16 rm)) ++ reads16 s rm

/-- A far pointer read: its offset, then its segment at offset `EA + 2` modulo 2^16 (R103, D10). -/
def readsFar (s : State) (m : Mem) : List DeviceEvent :=
  wordReadEvents s.memMap (lin (s.eseg m) (s.ea m + 2)) ++ wordReadEvents s.memMap (lin (s.eseg m) (s.ea m))

/-- The k-th word pushed, k from 1 (R18). -/
def pushes (s : State) (k : Nat) (v : Word) : List DeviceEvent :=
  wordWriteEvents s.memMap (lin s.ss (s.regs.sp - BitVec.ofNat 16 (2 * k))) v

/-- The first k words popped (R18). -/
def pops (s : State) : Nat → List DeviceEvent
  | 0 => []
  | k + 1 => wordReadEvents s.memMap (lin s.ss (s.regs.sp + BitVec.ofNat 16 (2 * k))) ++ pops s k

/-- An interrupt entered: the flags, `CS` and `IP` pushed, then the two words of the vector read (R404). -/
def enters (s : State) (n : Byte) : List DeviceEvent :=
  wordReadEvents s.memMap (BitVec.ofNat 20 (4 * n.toNat + 2)) ++
    wordReadEvents s.memMap (BitVec.ofNat 20 (4 * n.toNat)) ++
    (pushes s 3 s.ip ++ pushes s 2 s.cs ++ pushes s 1 s.flags.image)

/-- A divide error, if there is one (R267). -/
def dividesBadly (s : State) (error : Bool) : List DeviceEvent := if error then enters s 0 else []

/-- A signed quotient does not fit in w bits; that of `-2^(w-1)` is the parameter `IDIV_MIN_QUOTIENT` (R257, D18). -/
def Misfits (w : Nat) (q : Int) : Bool :=
  OutOfRange w q || (decide (q = -2 ^ (w - 1)) && !Config.idivMinQuotientFits)

/-- The memory writes of a hooked interrupt's handler (R411; log entries 19 and 35). -/
def hookWrites (s : State) (n : Byte) : List DeviceEvent :=
  ((hookHandler n s).flatMap fun
    | .mem a v => writeEvents s.memMap a v
    | .reg _ _ => []
    | .seg _ _ => []
    | .ip _ => []
    | .flags _ => []).reverse

/-- One element of a string instruction, and none under a repeat prefix with `CX = 0` (R310 to R317). -/
def element (s : State) (es : List DeviceEvent) : List DeviceEvent :=
  if s.pend.rep ≠ none ∧ s.regs.cx = 0 then [] else es

/-- The carry flag as a number (R240, R241). -/
def carry (s : State) (w : Nat) : BitVec w := BitVec.ofNat w s.flags.cf.toNat

/-- What each instruction does to the platform's devices, newest first: the operands it reads, in order, and then the
results it writes (R105; D46). -/
def busEvents (s : State) : Instr → List DeviceEvent
  -- ALU operations (R266)
  | .addRm8R8 rm r => updates8 s rm fun x => x + s.get8 r
  | .addRm16R16 rm r => updates16 s rm fun x => x + s.get16 r
  | .addRm8Imm8 rm v | .addRm8Imm8Alias rm v => updates8 s rm fun x => x + v
  | .addRm16Imm16 rm v => updates16 s rm fun x => x + v
  | .addRm16Imm8 rm v => updates16 s rm fun x => x + v.signExtend 16
  | .orRm8R8 rm r => updates8 s rm fun x => x ||| s.get8 r
  | .orRm16R16 rm r => updates16 s rm fun x => x ||| s.get16 r
  | .orRm8Imm8 rm v | .orRm8Imm8Alias rm v => updates8 s rm fun x => x ||| v
  | .orRm16Imm16 rm v => updates16 s rm fun x => x ||| v
  | .orRm16Imm8 rm v => updates16 s rm fun x => x ||| v.signExtend 16
  | .adcRm8R8 rm r => updates8 s rm fun x => x + s.get8 r + carry s 8
  | .adcRm16R16 rm r => updates16 s rm fun x => x + s.get16 r + carry s 16
  | .adcRm8Imm8 rm v | .adcRm8Imm8Alias rm v => updates8 s rm fun x => x + v + carry s 8
  | .adcRm16Imm16 rm v => updates16 s rm fun x => x + v + carry s 16
  | .adcRm16Imm8 rm v => updates16 s rm fun x => x + v.signExtend 16 + carry s 16
  | .sbbRm8R8 rm r => updates8 s rm fun x => x - s.get8 r - carry s 8
  | .sbbRm16R16 rm r => updates16 s rm fun x => x - s.get16 r - carry s 16
  | .sbbRm8Imm8 rm v | .sbbRm8Imm8Alias rm v => updates8 s rm fun x => x - v - carry s 8
  | .sbbRm16Imm16 rm v => updates16 s rm fun x => x - v - carry s 16
  | .sbbRm16Imm8 rm v => updates16 s rm fun x => x - v.signExtend 16 - carry s 16
  | .andRm8R8 rm r => updates8 s rm fun x => x &&& s.get8 r
  | .andRm16R16 rm r => updates16 s rm fun x => x &&& s.get16 r
  | .andRm8Imm8 rm v | .andRm8Imm8Alias rm v => updates8 s rm fun x => x &&& v
  | .andRm16Imm16 rm v => updates16 s rm fun x => x &&& v
  | .andRm16Imm8 rm v => updates16 s rm fun x => x &&& v.signExtend 16
  | .subRm8R8 rm r => updates8 s rm fun x => x - s.get8 r
  | .subRm16R16 rm r => updates16 s rm fun x => x - s.get16 r
  | .subRm8Imm8 rm v | .subRm8Imm8Alias rm v => updates8 s rm fun x => x - v
  | .subRm16Imm16 rm v => updates16 s rm fun x => x - v
  | .subRm16Imm8 rm v => updates16 s rm fun x => x - v.signExtend 16
  | .xorRm8R8 rm r => updates8 s rm fun x => x ^^^ s.get8 r
  | .xorRm16R16 rm r => updates16 s rm fun x => x ^^^ s.get16 r
  | .xorRm8Imm8 rm v | .xorRm8Imm8Alias rm v => updates8 s rm fun x => x ^^^ v
  | .xorRm16Imm16 rm v => updates16 s rm fun x => x ^^^ v
  | .xorRm16Imm8 rm v => updates16 s rm fun x => x ^^^ v.signExtend 16
  | .cmpRm8R8 rm _ | .cmpRm8Imm8 rm _ | .cmpRm8Imm8Alias rm _ => reads8 s rm
  | .cmpRm16R16 rm _ | .cmpRm16Imm16 rm _ | .cmpRm16Imm8 rm _ => reads16 s rm
  | .addR8Rm8 _ rm | .orR8Rm8 _ rm | .adcR8Rm8 _ rm | .sbbR8Rm8 _ rm | .andR8Rm8 _ rm | .subR8Rm8 _ rm
  | .xorR8Rm8 _ rm | .cmpR8Rm8 _ rm => reads8 s rm
  | .addR16Rm16 _ rm | .orR16Rm16 _ rm | .adcR16Rm16 _ rm | .sbbR16Rm16 _ rm | .andR16Rm16 _ rm | .subR16Rm16 _ rm
  | .xorR16Rm16 _ rm | .cmpR16Rm16 _ rm => reads16 s rm
  | .addAlImm8 _ | .orAlImm8 _ | .adcAlImm8 _ | .sbbAlImm8 _ | .andAlImm8 _ | .subAlImm8 _ | .xorAlImm8 _
  | .cmpAlImm8 _ | .addAxImm16 _ | .orAxImm16 _ | .adcAxImm16 _ | .sbbAxImm16 _ | .andAxImm16 _ | .subAxImm16 _
  | .xorAxImm16 _ | .cmpAxImm16 _ => []
  -- other arithmetic and logic
  | .incRm8 rm => updates8 s rm fun x => x + 1
  | .incRm16 rm => updates16 s rm fun x => x + 1
  | .decRm8 rm => updates8 s rm fun x => x - 1
  | .decRm16 rm => updates16 s rm fun x => x - 1
  | .negRm8 rm => updates8 s rm fun x => -x
  | .negRm16 rm => updates16 s rm fun x => -x
  | .notRm8 rm => updates8 s rm fun x => ~~~x
  | .notRm16 rm => updates16 s rm fun x => ~~~x
  | .incR16 _ | .decR16 _ | .testAlImm8 _ | .testAxImm16 _ | .daa | .das | .aaa | .aas | .aadImm8 _ | .cbw | .cwd => []
  | .testRm8R8 rm _ | .testRm8Imm8 rm _ | .mulRm8 rm | .imulRm8 rm => reads8 s rm
  | .testRm16R16 rm _ | .testRm16Imm16 rm _ | .mulRm16 rm | .imulRm16 rm => reads16 s rm
  | .divRm8 rm =>
    let d := (s.rm8 rm).toNat
    dividesBadly s (decide (d = 0 ∨ 0xFF < s.regs.ax.toNat / d)) ++ reads8 s rm
  | .divRm16 rm =>
    let d := (s.rm16 rm).toNat
    dividesBadly s (decide (d = 0 ∨ 0xFFFF < (s.regs.dx.toNat * 65536 + s.regs.ax.toNat) / d)) ++ reads16 s rm
  | .idivRm8 rm =>
    let d := (s.rm8 rm).toInt
    dividesBadly s (decide (d = 0) || Misfits 8 (s.regs.ax.toInt.tdiv d)) ++ reads8 s rm
  | .idivRm16 rm =>
    let d := (s.rm16 rm).toInt
    dividesBadly s (decide (d = 0) || Misfits 16 ((s.regs.dx ++ s.regs.ax).toInt.tdiv d)) ++ reads16 s rm
  | .aamImm8 b => dividesBadly s (decide (b = 0))
  -- shifts and rotates (R286)
  | .rolRm8One rm => updates8 s rm fun x => (shiftIter .rol 1 (x, s.flags.cf)).1
  | .rolRm8Cl rm => updates8 s rm fun x => (shiftIter .rol s.clCount (x, s.flags.cf)).1
  | .rolRm16One rm => updates16 s rm fun x => (shiftIter .rol 1 (x, s.flags.cf)).1
  | .rolRm16Cl rm => updates16 s rm fun x => (shiftIter .rol s.clCount (x, s.flags.cf)).1
  | .rorRm8One rm => updates8 s rm fun x => (shiftIter .ror 1 (x, s.flags.cf)).1
  | .rorRm8Cl rm => updates8 s rm fun x => (shiftIter .ror s.clCount (x, s.flags.cf)).1
  | .rorRm16One rm => updates16 s rm fun x => (shiftIter .ror 1 (x, s.flags.cf)).1
  | .rorRm16Cl rm => updates16 s rm fun x => (shiftIter .ror s.clCount (x, s.flags.cf)).1
  | .rclRm8One rm => updates8 s rm fun x => (shiftIter .rcl 1 (x, s.flags.cf)).1
  | .rclRm8Cl rm => updates8 s rm fun x => (shiftIter .rcl s.clCount (x, s.flags.cf)).1
  | .rclRm16One rm => updates16 s rm fun x => (shiftIter .rcl 1 (x, s.flags.cf)).1
  | .rclRm16Cl rm => updates16 s rm fun x => (shiftIter .rcl s.clCount (x, s.flags.cf)).1
  | .rcrRm8One rm => updates8 s rm fun x => (shiftIter .rcr 1 (x, s.flags.cf)).1
  | .rcrRm8Cl rm => updates8 s rm fun x => (shiftIter .rcr s.clCount (x, s.flags.cf)).1
  | .rcrRm16One rm => updates16 s rm fun x => (shiftIter .rcr 1 (x, s.flags.cf)).1
  | .rcrRm16Cl rm => updates16 s rm fun x => (shiftIter .rcr s.clCount (x, s.flags.cf)).1
  | .shlRm8One rm => updates8 s rm fun x => (shiftIter .shl 1 (x, s.flags.cf)).1
  | .shlRm8Cl rm => updates8 s rm fun x => (shiftIter .shl s.clCount (x, s.flags.cf)).1
  | .shlRm16One rm => updates16 s rm fun x => (shiftIter .shl 1 (x, s.flags.cf)).1
  | .shlRm16Cl rm => updates16 s rm fun x => (shiftIter .shl s.clCount (x, s.flags.cf)).1
  | .shrRm8One rm => updates8 s rm fun x => (shiftIter .shr 1 (x, s.flags.cf)).1
  | .shrRm8Cl rm => updates8 s rm fun x => (shiftIter .shr s.clCount (x, s.flags.cf)).1
  | .shrRm16One rm => updates16 s rm fun x => (shiftIter .shr 1 (x, s.flags.cf)).1
  | .shrRm16Cl rm => updates16 s rm fun x => (shiftIter .shr s.clCount (x, s.flags.cf)).1
  | .sarRm8One rm => updates8 s rm fun x => (shiftIter .sar 1 (x, s.flags.cf)).1
  | .sarRm8Cl rm => updates8 s rm fun x => (shiftIter .sar s.clCount (x, s.flags.cf)).1
  | .sarRm16One rm => updates16 s rm fun x => (shiftIter .sar 1 (x, s.flags.cf)).1
  | .sarRm16Cl rm => updates16 s rm fun x => (shiftIter .sar s.clCount (x, s.flags.cf)).1
  -- data transfer
  | .movRm8R8 rm r => writes8 s rm (s.get8 r)
  | .movRm16R16 rm r => writes16 s rm (s.get16 r)
  | .movRm8Imm8 rm v => writes8 s rm v
  | .movRm16Imm16 rm v => writes16 s rm v
  | .movRm16Es rm => writes16 s rm s.es
  | .movRm16Cs rm => writes16 s rm s.cs
  | .movRm16Ss rm => writes16 s rm s.ss
  | .movRm16Ds rm => writes16 s rm s.ds
  | .movR8Rm8 _ rm => reads8 s rm
  | .movR16Rm16 _ rm | .movEsRm16 rm | .movSsRm16 rm | .movDsRm16 rm => reads16 s rm
  | .movR8Imm8 _ _ | .movR16Imm16 _ _ | .leaR16M _ _ => []
  | .movAlMoffs8 off => readEvents s.memMap (lin (dataSegment s) off)
  | .movAxMoffs16 off => wordReadEvents s.memMap (lin (dataSegment s) off)
  | .movMoffs8Al off => writeEvents s.memMap (lin (dataSegment s) off) (s.get8 .al)
  | .movMoffs16Ax off => wordWriteEvents s.memMap (lin (dataSegment s) off) s.regs.ax
  | .pushR16 r => pushes s 1 (if r = .sp then s.regs.sp - 2 else s.get16 r)
  | .pushRm16 rm => pushes s 1 (s.rm16 rm) ++ reads16 s rm
  | .pushEs => pushes s 1 s.es
  | .pushCs => pushes s 1 s.cs
  | .pushSs => pushes s 1 s.ss
  | .pushDs => pushes s 1 s.ds
  | .pushf => pushes s 1 s.flags.image
  | .popR16 _ | .popEs | .popSs | .popDs | .popf => pops s 1
  | .popRm16 rm => writes16 s rm (stackTop s) ++ pops s 1
  | .xchgRm8R8 rm r => updates8 s rm fun _ => s.get8 r
  | .xchgRm16R16 rm r => updates16 s rm fun _ => s.get16 r
  | .xchgAxCx | .xchgAxDx | .xchgAxBx | .xchgAxSp | .xchgAxBp | .xchgAxSi | .xchgAxDi => []
  | .xlat => readEvents s.memMap (lin (dataSegment s) (BitVec.ofNat 16 (s.regs.bx.toNat + (s.get8 .al).toNat)))
  | .ldsR16M _ m | .lesR16M _ m => readsFar s m
  | .inAlImm8 n => portInEvents s.ioMap (BitVec.ofNat 16 n.toNat)
  | .inAxImm8 n => wordInEvents s.ioMap (BitVec.ofNat 16 n.toNat)
  | .inAlDx => portInEvents s.ioMap s.regs.dx
  | .inAxDx => wordInEvents s.ioMap s.regs.dx
  | .outImm8Al n => portOutEvents s.ioMap (BitVec.ofNat 16 n.toNat) (s.get8 .al)
  | .outImm8Ax n => wordOutEvents s.ioMap (BitVec.ofNat 16 n.toNat) s.regs.ax
  | .outDxAl => portOutEvents s.ioMap s.regs.dx (s.get8 .al)
  | .outDxAx => wordOutEvents s.ioMap s.regs.dx s.regs.ax
  | .lahf | .sahf => []
  -- strings (R310 to R317)
  | .movsb => element s (writeEvents s.memMap (destinationAt s) (s.read8 (sourceAt s)) ++ readEvents s.memMap (sourceAt s))
  | .movsw =>
    element s
      (wordWriteEvents s.memMap (destinationAt s) (s.read16 (sourceAt s)) ++ wordReadEvents s.memMap (sourceAt s))
  | .cmpsb => element s (readEvents s.memMap (destinationAt s) ++ readEvents s.memMap (sourceAt s))
  | .cmpsw => element s (wordReadEvents s.memMap (destinationAt s) ++ wordReadEvents s.memMap (sourceAt s))
  | .scasb => element s (readEvents s.memMap (destinationAt s))
  | .scasw => element s (wordReadEvents s.memMap (destinationAt s))
  | .lodsb => element s (readEvents s.memMap (sourceAt s))
  | .lodsw => element s (wordReadEvents s.memMap (sourceAt s))
  | .stosb => element s (writeEvents s.memMap (destinationAt s) (s.get8 .al))
  | .stosw => element s (wordWriteEvents s.memMap (destinationAt s) s.regs.ax)
  -- control transfer
  | .jmpRm16 rm => reads16 s rm
  | .jmpFarM m => readsFar s m
  | .callRel16 _ => pushes s 1 s.ip
  | .callRm16 rm => pushes s 1 s.ip ++ reads16 s rm
  | .callFarPtr _ _ => pushes s 2 s.ip ++ pushes s 1 s.cs
  | .callFarM m => pushes s 2 s.ip ++ pushes s 1 s.cs ++ readsFar s m
  | .ret | .retImm16 _ => pops s 1
  | .retf | .retfImm16 _ => pops s 2
  | .iret => pops s 3
  | .intImm8 n => if n ∈ s.hooks then hookWrites s n else enters s n
  | .int3 => enters s 3
  | .into => if s.flags.ofl then enters s 4 else []
  | .joRel8 _ | .jnoRel8 _ | .jbRel8 _ | .jnbRel8 _ | .jzRel8 _ | .jnzRel8 _ | .jbeRel8 _ | .jnbeRel8 _ | .jsRel8 _
  | .jnsRel8 _ | .jpRel8 _ | .jnpRel8 _ | .jlRel8 _ | .jnlRel8 _ | .jleRel8 _ | .jnleRel8 _ | .loopRel8 _
  | .loopzRel8 _ | .loopnzRel8 _ | .jcxzRel8 _ | .jmpRel8 _ | .jmpRel16 _ | .jmpFarPtr _ _ => []
  -- processor control and prefixes
  | .clc | .stc | .cmc | .cld | .std | .cli | .sti | .hlt | .nop | .wait | .escRm _ _ | .prefixEs | .prefixCs
  | .prefixSs | .prefixDs | .prefixLock | .prefixRepne | .prefixRep => []

/-- The instruction does exactly this to the platform's devices, newest first. Over buses that have one of them at every
address and port this is every byte operation of the instruction, in order. -/
def Accesses (i : Instr) (s : State) (es : List DeviceEvent) : Prop :=
  Completes i s fun t => t.devices = es ++ s.devices

/-! ### The surface (R482 to R492) -/

/-- The surface shows a colour at (x, y): red, green, blue and alpha FFh (R492). -/
def Shows (surface : List Byte) (x y : Nat) (c : Rgb) : Prop :=
  surface[(y * 640 + x) * 4]? = some c.r ∧ surface[(y * 640 + x) * 4 + 1]? = some c.g ∧
    surface[(y * 640 + x) * 4 + 2]? = some c.b ∧ surface[(y * 640 + x) * 4 + 3]? = some 0xFF

/-- The colour with a number of the palette (R491). -/
def colour (n : Nat) : Rgb := Config.palette16 (BitVec.ofNat 4 n)

/-- The colour of a pixel of a text cell: glyph line l and glyph column g of cell n, on a screen of C columns (R483, R484,
R485, R487). -/
def textColour (p : Snapshot) (blink : Bool) (n l g : Nat) : Rgb :=
  let attr := vramByte p.vram (2 * n + 1)
  let glyph := (Config.font8x8 (vramByte p.vram (2 * n)) (BitVec.ofNat 3 l)).getLsbD (7 - g)
  let hidden := p.modeCtrl.getLsbD 5 && attr.getLsbD 7 && blink
  let cursor := p.cursorVisible && !blink && decide (p.cursorPos.toNat = n) && decide (l = 6 ∨ l = 7)
  if (glyph && !hidden) || cursor then colour (attr.toNat % 16)
  else colour (if p.modeCtrl.getLsbD 5 then attr.toNat / 16 % 8 else attr.toNat / 16)

/-- The colour of a medium-resolution pixel with value `idx` (R488, R489). -/
def mediumColourOf (colorCtrl : Byte) (idx : Nat) : Rgb :=
  let bright := if colorCtrl.getLsbD 4 then 8 else 0
  match idx with
  | 0 => colour (colorCtrl.toNat % 16)
  | 1 => colour ((if colorCtrl.getLsbD 5 then 3 else 2) + bright)
  | 2 => colour ((if colorCtrl.getLsbD 5 then 5 else 4) + bright)
  | _ => colour ((if colorCtrl.getLsbD 5 then 7 else 6) + bright)

/-! ### Fair runs (R471, R480, R530, U16) -/

/-- A run that never stops, turn after turn. -/
def IsRun (r : Nat → State) : Prop := ∀ k, step (r k) = .next (r (k + 1))

/-- It holds at turns without end. -/
def InfinitelyOften (P : Nat → Prop) : Prop := ∀ n, ∃ m, n ≤ m ∧ P m

/-- Scanlines advance infinitely often (R471, R530). -/
def ScanlinesAdvance (r : Nat → State) : Prop :=
  InfinitelyOften fun m => (r m).cga.lastScanlineNs < (r (m + 1)).cga.lastScanlineNs

/-- Render ticks occur infinitely often (R480, R530). -/
def TicksOccur (r : Nat → State) : Prop := InfinitelyOften fun m => (r m).cga.ticks < (r (m + 1)).cga.ticks

/-- Every raised request is eventually seen by a step with `IF = 1` (R530). It depends on the program, which may keep `IF`
clear for ever, so no step can make it so: a claim that a request is served assumes it. -/
def RequestsSeen (r : Nat → State) : Prop :=
  ∀ (i : Fin 8) (n : Nat), (r n).pic.irr.getLsbD i = true → ∃ m, n ≤ m ∧ (r m).flags.ifl = true

/-- The fairness to which R530 reduces time. -/
def FairRun (r : Nat → State) : Prop := ScanlinesAdvance r ∧ TicksOccur r ∧ RequestsSeen r

/-! ### Safe runs -/

/-- The state after at most k steps that all answered a next state. -/
def RunsTo (k : Nat) (s t : State) : Prop := Host.Core.run Sys2Proof.core k s = .next t

/-- A run that goes wrong: some step of it answers a fault. -/
def GoesWrong (s : State) : Prop := ∃ k t e, RunsTo k s t ∧ step t = .fault e

end Sys2Proof.Machine
end

