-- ==== Sys2Proof/Certificates/Slice0/Obligations.lean ====
section
/-! DEFINITION. What is claimed of the model, each claim from a numbered rule of spec/. The terms are those of
Sys2Proof/Safety.lean. -/

open Sys2Proof Sys2Proof.Machine

/-! ### Encoding -/

/-- Decoding the bytes of a well-formed instruction gives it back, with the bytes that follow (R130, R163). -/
def Obligations.DecodeInvertsEncode : Prop :=
  ∀ (i : Instr) (rest : List Byte), i.wf = true → decode (encode i ++ rest) = .ok (i, rest)

/-- What decodes is well formed, and its bytes are exactly the ones the decoder took: no byte sequence has two meanings
and no bit of an encoding is dropped (R130, R149). -/
def Obligations.EncodeInvertsDecode : Prop :=
  ∀ (bs : List Byte) (i : Instr) (rest : List Byte), decode bs = .ok (i, rest) → i.wf = true ∧ encode i ++ rest = bs

/-- The decoder refuses exactly the encodings of R160, by their first two bytes. Which encodings those are (D3), and that
opcodes 82h and 83h take all eight operations, so that nothing more is refused (D5), is a choice: log entry 32. -/
def Obligations.InvalidEncodings : Prop :=
  ∀ (op m : Byte) (rest : List Byte), rest.length = 4 →
    ((∃ e, decode (op :: m :: rest) = .error e) ↔ invalidEncoding op m = true)

/-- Fourteen words written out from the encodings of the spec decode to the instructions they stand for (R201, R202, R203,
R219, R244, R253, R281, R287, R313, R331, R338, R364, R224, R210). -/
def Obligations.DecodesWrittenWords : Prop :=
  decode [0x89, 0xD8] = .ok (.movRm16R16 (.reg .ax) .bx, []) ∧
    decode [0x8B, 0x46, 0xFE] = .ok (.movR16Rm16 .ax (.mem (.based .bp (.d8 0xFE))), []) ∧
    decode [0xC7, 0x06, 0x00, 0x02, 0x34, 0x12] = .ok (.movRm16Imm16 (.mem (.direct 0x0200)) 0x1234, []) ∧
    decode [0x8D, 0x5E, 0x04] = .ok (.leaR16M .bx (.based .bp (.d8 4)), []) ∧
    decode [0x04, 0x01] = .ok (.addAlImm8 1, []) ∧ decode [0xF6, 0xD8] = .ok (.negRm8 (.reg .al), []) ∧
    decode [0xF6, 0xD0] = .ok (.notRm8 (.reg .al), []) ∧ decode [0xD3, 0xE0] = .ok (.shlRm16Cl (.reg .ax), []) ∧
    decode [0xA4] = .ok (.movsb, []) ∧ decode [0xEB, 0x05] = .ok (.jmpRel8 5, []) ∧
    decode [0x9A, 0x00, 0x00, 0x00, 0x20] = .ok (.callFarPtr 0x0000 0x2000, []) ∧
    decode [0xCD, 0x21] = .ok (.intImm8 0x21, []) ∧ decode [0xEC] = .ok (.inAlDx, []) ∧
    decode [0xFF, 0x36, 0x00, 0x02] = .ok (.pushRm16 (.mem (.direct 0x0200)), [])

/-! ### Reset -/

/-- `reset()` gives every field the value of R511's table and leaves the rest (R51, R52, R440, R474, R510, R511), a second
reset at the same time changes nothing (R512), and the first one, of a platform, leaves the same with what is installed
there (R515). The numbers are the spec's own decisions D7, D29 and D38 (log entries 12, 13 and 14). -/
def Obligations.ResetValues : Prop :=
  ∀ s : State,
    (let t := s.hostReset
     t.cs = 0xFFFF ∧ t.ip = 0x0000 ∧ t.ds = 0 ∧ t.es = 0 ∧ t.ss = 0 ∧ (∀ r, t.get16 r = 0) ∧
      t.flags = ⟨false, false, false, false, false, false, false, false, false⟩ ∧ t.flags.image = 0xF002 ∧
      t.halt = false ∧ t.debug = false ∧ t.pend.ovr = none ∧ t.pend.rep = none ∧ t.pend.lock = false ∧
      t.pic.irr = 0x00 ∧ t.pic.isr = 0x00 ∧ t.pic.imr = 0x00 ∧ t.pic.base = 0x08 ∧ t.pic.init = .ready ∧
      t.pic.icw1 = 0 ∧ t.pic.icw4 = 0 ∧ t.pic.readIsr = false ∧
      t.cga.crtIndex = 0 ∧ (∀ k : Fin 256, t.cga.crtReg[k] = 0) ∧ t.cga.modeCtrl = 0 ∧ t.cga.colorCtrl = 0 ∧
      t.cga.status = 0 ∧ t.cga.cursorPos = 0 ∧ t.cga.cursorVisible = true ∧ t.cga.scanline = 0 ∧
      t.cga.lastScanlineNs = s.now ∧ t.cga.dirty = true ∧ t.cga.cycleCounter = 0 ∧ t.cga.blinkPhase = false ∧
      t.cga.lastBlinkPhase = false ∧ t.cga.vram = s.cga.vram ∧ t.cga.surface = s.cga.surface ∧ t.mem = s.mem ∧
      t.memMap = s.memMap ∧ t.ioMap = s.ioMap ∧ t.hooks = s.hooks ∧ t.now = s.now ∧ t.ended = false) ∧
      s.hostReset.hostReset = s.hostReset ∧
      ∀ (p : Platform) (now : Nat),
        (p.reset now).hostReset = p.reset now ∧ (p.reset now).mem = p.image ∧
          (p.reset now).memMap = p.memMap ∧ (p.reset now).ioMap = p.ioMap ∧ (p.reset now).hooks = p.hooks

/-- The invariant holds right after reset. It is a property of the values of `State.reset`, which are log entries 12
(PRESUMED), 13 and 14 (DESIGN CHOICE; D7, D29, D38), and the base case of the next statement. -/
def Obligations.ResetMeetsInvariant : Prop := Inv State.reset

/-! ### The step -/

/-- Every step from a state that meets the invariant leaves a state that meets it: memory stays canonical, no prefix
outlives its instruction (R43, R44), the vector base stays a multiple of 8 (R47), the CGA's status and cursor stay
consistent (R466, R469, R472), and a halted processor has interrupts enabled (R403). -/
def Obligations.StepKeepsInvariant : Prop := ∀ s t : State, Inv s → step s = .next t → Inv t

/-- When the bytes fetched from `CS:IP` are an instruction, no request is to be acknowledged and the processor is not
halted, a step is that instruction with `IP` past its bytes, then the end of the instruction and of the turn (R11, R17,
R35, R400). The end of an instruction that began with `TF` set enters interrupt 1 and clears `Halt` where the single-step
trap exists, and otherwise nothing but the prefixes goes: `SINGLE_STEP_TRAP` is left open by the spec, and what the trap
does to `Halt` is the model's choice (R412, D20, log entry 5). The end of the turn: a positive cycle count is drawn and
returned (R400, R421), every peripheral steps with it unless the run is over (R11, R471; that they do not then is log entry
6), and at last there is a moment at which the render task may tick (R480; log entry 17). -/
def Obligations.StepRunsDecodedInstruction : Prop :=
  (∀ (s : State) (i : Instr) (n : Nat), s.ended = false → s.halt = false →
    (s.flags.ifl = false ∨ s.takeInput.pic.nextPending = none) → decode (s.codeBytes n) = .ok (i, []) →
    i.isPrefix = false →
    step s =
      match exec i (s.takeInput.begun.fetched n) with
      | .next t => .next ((t.finished s.flags.tf).afterStep s.nextInput.elapsedNs)
      | .fault e => .fault e
      | .refused e => .refused e) ∧
    (∀ (s : State) (tf : Bool),
      if tf = true ∧ Config.singleStepTrap = true ∧ s.ended = false then
        Entered s (s.finished tf) 1 ∧ (s.finished tf).halt = false ∧ (s.finished tf).pend = noPending ∧
          RegistersOutside s (s.finished tf) [.sp] ∧ MemoryOutside s (s.finished tf) (entryCells s)
      else s.finished tf = { s with pend := noPending }) ∧
    ∀ (s : State) (e : Nat),
      let t := s.afterStep e
      0 < t.cycles ∧
        t =
          { s with
            cycles := t.cycles
            draws := s.draws + 1
            now := if s.ended then s.now else s.now + e
            devices := if s.ended then s.devices else .step t.cycles :: s.devices
            cga := (if s.ended then s.cga else s.cga.step t.cycles (s.now + e)).moment }

/-- A run of prefix bytes before an instruction is gathered and the instruction runs with what it leaves pending (R132).
That of several overrides the last wins, and of several repeats the last, is D14, and that the prefix bytes are
instructions of one step, 65535 at most, is the model's reading: log entry 8 (DEDUCED). -/
def Obligations.PrefixesGather : Prop :=
  ∀ (s : State) (ps : List Instr) (i : Instr) (n : Nat), (∀ p ∈ ps, p.isPrefix = true) → ps.length < prefixLimit →
    s.codeBytes ps.length = ps.flatMap encode → decode ((s.fetched ps.length).codeBytes n) = .ok (i, []) →
    i.isPrefix = false →
    State.runInstr prefixLimit s = exec i { s.fetched (ps.length + n) with pend := gathered s.pend ps }

/-- The interrupt check acknowledges at most one request, and only with `IF` set: the vector of the selected line is
entered, its in-service bit set and its request bit cleared, and `Halt` cleared; the step goes on from there (R402). -/
def Obligations.InterruptCheckAcknowledges : Prop :=
  (∀ s : State, s.flags.ifl = false ∨ s.pic.nextPending = none → s.interruptCheck = s) ∧
    (∀ (s : State) (v : Byte), s.flags.ifl = true → s.pic.nextPending = some v → s.pic.base &&& 7 = 0 →
      ∃ i : Fin 8, v.toNat = s.pic.base.toNat + i.val ∧ Entered s s.interruptCheck v ∧ s.interruptCheck.halt = false ∧
        s.interruptCheck.pic =
          { s.pic with isr := s.pic.isr ||| (1#8 <<< i.val), irr := s.pic.irr &&& ~~~(1#8 <<< i.val) } ∧
        RegistersOutside s s.interruptCheck [.sp] ∧ MemoryOutside s s.interruptCheck (entryCells s)) ∧
    ∀ s : State, s.ended = false → s.procStep = s.interruptCheck.instrPhase

/-- `HLT` with `IF = 1` halts and with `IF = 0` ends the run; a halted step with no request to acknowledge changes
nothing; after the end every step is refused (R378, R403, R409; the refusal is D23). Each step hands the host a positive
cycle count, a draw, with its outcome, `CpuHalt` exactly when it ends the run and `InvalidOpcode` when it stops with that
fault (R12, R400, R410, R421; D41, log entry 18). -/
def Obligations.HltHaltsOrEnds : Prop :=
  encode .hlt = [0xF4] ∧ (∀ s : State, s.flags.ifl = true → exec .hlt s = .next { s with halt := true }) ∧
    (∀ s : State, s.flags.ifl = false → exec .hlt s = .next { s with ended := true }) ∧
    (∀ s : State, s.ended = false → s.halt = true → (s.flags.ifl = false ∨ s.pic.nextPending = none) →
      s.procStep = .next s) ∧
    (∀ s : State, s.ended = true → step s = .refused .afterCpuHalt ∧ s.handed = none) ∧
    ∀ s : State,
      (∀ t, step s = .next t →
        0 < t.cycles ∧ s.handed = some (t.cycles, if t.ended then StepOutcome.cpuHalt else .success)) ∧
        (step s = .fault .invalidOpcode → ∃ n, 0 < n ∧ s.handed = some (n, .invalidOpcode))

/-- A step whose first two bytes are an encoding of R160 stops with the fault `InvalidOpcode` (R160, R410, D4; log
entry 7). -/
def Obligations.InvalidOpcodeFaults : Prop :=
  ∀ (s : State) (op m : Byte), s.ended = false → s.halt = false →
    (s.flags.ifl = false ∨ s.takeInput.pic.nextPending = none) → s.codeBytes 2 = [op, m] →
    invalidEncoding op m = true → step s = .fault .invalidOpcode

/-! ### Addresses, registers and buses -/

/-- The half registers alias the bytes of `AX`, `CX`, `DX` and `BX`: writing one leaves the other half and every other
register, and writing the word writes both (R32). -/
def Obligations.HalfRegistersAlias : Prop :=
  (List.range 8).map (fun n => reg8Of (BitVec.ofNat 3 n)) = [.al, .cl, .dl, .bl, .ah, .ch, .dh, .bh] ∧
    (∀ (s : State) (r q : Reg8) (v : Byte), (s.set8 r v).get8 q = if q = r then v else s.get8 q) ∧
    (∀ (s : State) (r : Reg8) (q : Reg16) (v : Byte), q ≠ container r → (s.set8 r v).get16 q = s.get16 q) ∧
    (∀ s : State,
      s.regs.ax.toNat = (s.get8 .ah).toNat * 256 + (s.get8 .al).toNat ∧
        s.regs.cx.toNat = (s.get8 .ch).toNat * 256 + (s.get8 .cl).toNat ∧
        s.regs.dx.toNat = (s.get8 .dh).toNat * 256 + (s.get8 .dl).toNat ∧
        s.regs.bx.toNat = (s.get8 .bh).toNat * 256 + (s.get8 .bl).toNat) ∧
    ∀ (s : State) (v : Word),
      ((s.set16 .ax v).get8 .al = loByte v ∧ (s.set16 .ax v).get8 .ah = hiByte v) ∧
        ((s.set16 .cx v).get8 .cl = loByte v ∧ (s.set16 .cx v).get8 .ch = hiByte v) ∧
        ((s.set16 .dx v).get8 .dl = loByte v ∧ (s.set16 .dx v).get8 .dh = hiByte v) ∧
        ((s.set16 .bx v).get8 .bl = loByte v ∧ (s.set16 .bx v).get8 .bh = hiByte v)

/-- The FLAGS image has the nine flags at their bits and the fixed bits of D6; loading an image and taking it again is
the identity on the flags, and normalises the other bits (R38, R40). -/
def Obligations.FlagsImageLayout : Prop :=
  (∀ f : Flags, flagsOfImage f.image = f) ∧
    ∀ v : Word,
      (flagsOfImage v).image = v &&& 0x0FD5 ||| 0xF002 ∧
        flagsOfImage v =
          ⟨v.getLsbD 0, v.getLsbD 2, v.getLsbD 4, v.getLsbD 6, v.getLsbD 7, v.getLsbD 8, v.getLsbD 9, v.getLsbD 10,
            v.getLsbD 11⟩

/-- An install before `reset()` claims its range and nothing else; it fails exactly when the range is none of the bus's,
or when some address or port of it has an owner, and then nothing changes (R86, R96; all or nothing is D33). After
`reset()` every install is refused (U23, R515). `set_v20_support(false)` leaves everything as it is, and
`set_v20_support(true)` is refused, before `reset()` and after it (R9, R12; D2, U5, log entry 24). That a range that is none of the bus's is turned away, and by an error named
`badRange`, is the model's reading, since R86 and R96 give only ranges within the bus: log entry 22 (DEDUCED). -/
def Obligations.InstallRoutesOrFails : Prop :=
  (∀ (p : Platform) (dev : MemDevice) (first last : Nat),
    if first ≤ last ∧ last < 2 ^ 20 then
      if ∃ a : Addr, first ≤ a.toNat ∧ a.toNat ≤ last ∧ memOwner p.memMap a ≠ none then
        p.installMemoryDevice dev first last = .error .addressOverlap
      else
        ∃ q, p.installMemoryDevice dev first last = .ok q ∧ q = { p with memMap := q.memMap } ∧
          ∀ a : Addr, memOwner q.memMap a = if first ≤ a.toNat ∧ a.toNat ≤ last then some dev else memOwner p.memMap a
    else p.installMemoryDevice dev first last = .error .badRange) ∧
    (∀ (p : Platform) (dev : IoDevice) (first last : Nat),
      if first ≤ last ∧ last < 2 ^ 16 then
        if ∃ x : Word, first ≤ x.toNat ∧ x.toNat ≤ last ∧ ioOwner p.ioMap x ≠ none then
          p.installIoDevice dev first last = .error .portOverlap
        else
          ∃ q, p.installIoDevice dev first last = .ok q ∧ q = { p with ioMap := q.ioMap } ∧
            ∀ x : Word, ioOwner q.ioMap x = if first ≤ x.toNat ∧ x.toNat ≤ last then some dev else ioOwner p.ioMap x
      else p.installIoDevice dev first last = .error .badRange) ∧
    ∀ s : State,
      (∀ dev first last, s.installMemoryDevice dev first last = .error .afterReset) ∧
        (∀ dev first last, s.installIoDevice dev first last = .error .afterReset) ∧
        (∀ n, s.installHook n = .error .afterReset) ∧
        s.setV20Support false = .ok s ∧ s.setV20Support true = .error .v20Support ∧
        ∀ p : Platform, p.setV20Support false = .ok p ∧ p.setV20Support true = .error .v20Support

/-- Every byte operation of the two buses goes to the device that owns the address or the port: to RAM, ROM or the CGA's
video memory, to the PIC or the CGA's ports, to a device of the platform, which is told of it; and where no device is, a
read gives FFh on the memory bus and 0 on the IO bus, and a write is dropped (R85, R87, R88, R89, R94, R98, R99). The owner
table of the ports after reset has the CGA on 3D0h to 3DFh, the PIC on 20h and 21h (the PC/XT's, log entry 11, PRESUMED,
D28), and nothing else (R97, R431, R463). What a device of the platform answers, a free function of the history that each
operation is put on, is the model's: log entry 36 (DESIGN CHOICE). Before a write that can change what the render task sees there is a moment at
which it may tick (R104; log entry 17). -/
def Obligations.BusDefaults : Prop :=
  (∀ (s : State) (a : Addr) (v : Byte),
    match memOwner s.memMap a with
    | some .ram => s.afterRead8 a = s ∧ (s.write8 a v).read8 a = v ∧ s.write8 a v = { s with mem := s.mem.set a.toNat v }
    | some .rom => s.afterRead8 a = s ∧ s.write8 a v = s
    | some .cga =>
      s.read8 a = s.cga.readByte a ∧ s.afterRead8 a = s ∧
        s.write8 a v = { s with cga := s.cga.moment.writeByte a v }
    | some (.other d) =>
      s.read8 a = Config.deviceRead s.devices d a ∧ s.afterRead8 a = { s with devices := .read d a :: s.devices } ∧
        s.write8 a v = { s with devices := .write d a v :: s.devices }
    | none => s.read8 a = 0xFF ∧ s.afterRead8 a = s ∧ s.write8 a v = s) ∧
    (∀ (s : State) (p : Word) (v : Byte),
      match ioOwner s.ioMap p with
      | some .pic => s.portIn8 p = (s.pic.portIn p, s) ∧ s.portOut8 p v = { s with pic := s.pic.portOut p v }
      | some .cga =>
        s.portIn8 p = ((s.cga.portIn p).1, { s with cga := (s.cga.portIn p).2 }) ∧
          s.portOut8 p v = { s with cga := s.cga.moment.portOut p v }
      | some (.other d) =>
        s.portIn8 p = (Config.deviceIn s.devices d p, { s with devices := .portIn d p :: s.devices }) ∧
          s.portOut8 p v = { s with devices := .portOut d p v :: s.devices }
      | none => s.portIn8 p = (0x00, s) ∧ s.portOut8 p v = s) ∧
    ∀ p : Word,
      ioOwner defaultIoMap p =
        if 0x3D0 ≤ p.toNat ∧ p.toNat ≤ 0x3DF then some .cga
        else if 0x20 ≤ p.toNat ∧ p.toNat ≤ 0x21 then some .pic
        else none

/-- The CGA claims B8000h to BFFFFh, and its upper 16 KiB are the lower ones: a byte written through either window is read
through both, a write sets the dirty flag, and every other byte of memory reads as before (R461, R462). -/
def Obligations.CgaMemoryAliases : Prop :=
  (∀ a : Addr, memOwner defaultMemMap a = some .cga ↔ 0xB8000 ≤ a.toNat ∧ a.toNat ≤ 0xBFFFF) ∧
    ∀ (s : State) (a b : Addr) (v : Byte), memOwner s.memMap a = some .cga → memOwner s.memMap b = some .cga →
      a.toNat % 0x4000 = b.toNat % 0x4000 →
      (s.write8 a v).read8 b = v ∧ s.read8 a = s.read8 b ∧ (s.write8 a v).cga.dirty = true ∧
        ∀ d : Addr, (memOwner s.memMap d = some .cga → d.toNat % 0x4000 ≠ a.toNat % 0x4000) →
          (s.write8 a v).read8 d = s.read8 d

/-- The effective address of every ModR/M form, its default segment, the override that replaces it; the linear address,
which is the segment times 16 plus the offset, modulo 2^20; and the two bytes a word operand is read from (R81, R90, R91,
R140, R142, R143). That the low byte is read first and that the high one is at the next linear address is the spec's own
choice D9: log entry 26 (DESIGN CHOICE). -/
def Obligations.EffectiveAddresses : Prop :=
  (∀ s : State,
    (∀ d, s.ea (.direct d) = d ∧ defaultSeg (.direct d) = .ds) ∧
      (∀ (b : EaBase) (x : Nat) (q : SReg),
        (b, x, q) ∈
          [(EaBase.bxsi, s.regs.bx.toNat + s.regs.si.toNat, SReg.ds), (.bxdi, s.regs.bx.toNat + s.regs.di.toNat, .ds),
            (.bpsi, s.regs.bp.toNat + s.regs.si.toNat, .ss), (.bpdi, s.regs.bp.toNat + s.regs.di.toNat, .ss),
            (.si, s.regs.si.toNat, .ds), (.di, s.regs.di.toNat, .ds), (.bp, s.regs.bp.toNat, .ss),
            (.bx, s.regs.bx.toNat, .ds)] →
        (s.ea (.based b .none)).toNat = x % 65536 ∧
          (∀ v, ((s.ea (.based b (.d8 v))).toNat : Int) = ((x : Int) + v.toInt) % 65536) ∧
          (∀ v, (s.ea (.based b (.d16 v))).toNat = (x + v.toNat) % 65536) ∧ ∀ d, defaultSeg (.based b d) = q) ∧
      (∀ m, s.memAddr m = lin (match s.pend.ovr with | none => s.getS (defaultSeg m) | some q => s.getS q) (s.ea m)) ∧
      ∀ a, (s.read16 a).toNat =
        (s.read8 a).toNat + 256 * ((s.afterRead8 a).read8 (BitVec.ofNat 20 ((a.toNat + 1) % 2 ^ 20))).toNat) ∧
    (∀ seg off : Word, (lin seg off).toNat = (seg.toNat * 16 + off.toNat) % 2 ^ 20) ∧ lin 0xFFFF 0x0010 = 0x00000 ∧
    lin 0xF000 0xFFF0 = 0xFFFF0 ∧ lin 0xFFFF 0x0000 = 0xFFFF0

/-! ### The CGA -/

/-- The CRT index ports and data ports: every index selects one byte of the register file, reading it has no side effect,
and a write has exactly the side effects of R466 (R464, R465, R466). -/
def Obligations.CrtRegisterFile : Prop :=
  ∀ (c : Cga) (v : Byte),
    (∀ p ∈ ([0x3D0, 0x3D2, 0x3D4, 0x3D6] : List Word), c.portOut p v = { c with crtIndex := v }) ∧
      ∀ p ∈ ([0x3D1, 0x3D3, 0x3D5, 0x3D7] : List Word),
        c.portIn p = (c.crtReg[c.crtIndex.toFin], c) ∧
          (∀ k : Fin 256, (c.portOut p v).crtReg[k] = if k = c.crtIndex.toFin then v else c.crtReg[k]) ∧
          (c.portOut p v).cursorVisible = (if c.crtIndex = 0x0A then !v.getLsbD 5 else c.cursorVisible) ∧
          (c.portOut p v).cursorPos =
            (if c.crtIndex = 0x0E then c.cursorPos &&& 0x00FF ||| v.setWidth 16 <<< 8
             else if c.crtIndex = 0x0F then c.cursorPos &&& 0xFF00 ||| v.setWidth 16
             else c.cursorPos) ∧
          c.portOut p v =
            { c with
              crtReg := (c.portOut p v).crtReg, cursorVisible := (c.portOut p v).cursorVisible
              cursorPos := (c.portOut p v).cursorPos }

/-- The other CGA ports: mode and colour control are written whole, the status port reads the status and clears its
bit 0, and everything else reads 0 and drops writes (R463, R467, R468, R469; the silent cases are D35). -/
def Obligations.CgaStatusAndControlPorts : Prop :=
  ∀ (c : Cga) (v : Byte),
    c.portOut 0x3D8 v = { c with modeCtrl := v } ∧ c.portOut 0x3D9 v = { c with colorCtrl := v } ∧
      c.portIn 0x3DA = (c.status, { c with status := c.status &&& 0xFE }) ∧
      (∀ p ∈ ([0x3DA, 0x3DB, 0x3DC, 0x3DD, 0x3DE, 0x3DF] : List Word), c.portOut p v = c) ∧
      ∀ p ∈ ([0x3D0, 0x3D2, 0x3D4, 0x3D6, 0x3D8, 0x3D9, 0x3DB, 0x3DC, 0x3DD, 0x3DE, 0x3DF] : List Word),
        c.portIn p = (0x00, c)

/-- The CGA's step: as many scanlines pass as whole periods of 31469 ns have, the counter wraps at 525, bit 0 of the
status is set by an advance, and bit 3 says whether the scanline is above 479 (R471, R472, R473; D36, D37). -/
def Obligations.ScanlineAdvance : Prop :=
  ∀ (c : Cga) (cycles now : Nat),
    let k := (now - c.lastScanlineNs) / 31469
    let d := c.step cycles now
    d.scanline.val = (c.scanline.val + k) % 525 ∧ d.lastScanlineNs = c.lastScanlineNs + k * 31469 ∧
      now - d.lastScanlineNs < 31469 ∧ d.cycleCounter = c.cycleCounter + cycles ∧
      (k = 0 → d.status = c.status) ∧
      (k ≠ 0 → d.status.getLsbD 0 = true ∧ d.status.getLsbD 3 = decide (479 < d.scanline.val) ∧
        d.status &&& 0xF6 = c.status &&& 0xF6) ∧
      d =
        { c with
          scanline := d.scanline, lastScanlineNs := d.lastScanlineNs, cycleCounter := d.cycleCounter
          status := d.status }

/-- A render in a graphics mode: the surface has 640 x 200 x 4 bytes, red, green, blue and alpha FFh for each pixel. In the
high-resolution mode a pixel is white where its bit is set and black where it is not; in the medium-resolution mode each
pair of bits, leftmost first, is two surface pixels of the colour the palette of the colour control gives it; odd lines
come from the second 8 KiB (R482, R488 to R492; the colours are D39, the palette PRESUMED: log entry 25). -/
def Obligations.GraphicsSurfaces : Prop :=
  ∀ (p : Snapshot) (blink : Bool),
    (render p blink).length = 640 * 200 * 4 ∧
      (p.modeCtrl.getLsbD 1 = true → p.modeCtrl.getLsbD 4 = true → ∀ x y, x < 640 → y < 200 →
        Shows (render p blink) x y
          (if (vramByte p.vram (y / 2 * 80 + y % 2 * 8192 + x / 8)).getLsbD (7 - x % 8) then ⟨0xFF, 0xFF, 0xFF⟩
           else ⟨0x00, 0x00, 0x00⟩)) ∧
      (p.modeCtrl.getLsbD 1 = true → p.modeCtrl.getLsbD 4 = false → ∀ x y, x < 320 → y < 200 →
        let idx := (vramByte p.vram (y / 2 * 80 + y % 2 * 8192 + x / 4)).toNat / 4 ^ (3 - x % 4) % 4
        Shows (render p blink) (2 * x) y (mediumColourOf p.colorCtrl idx) ∧
          Shows (render p blink) (2 * x + 1) y (mediumColourOf p.colorCtrl idx))

/-- A render in a text mode: glyph line l and glyph column g of the cell in row r and column c cover one surface pixel on
the 80-column screen and two side by side on the 40-column one, in the cell's foreground colour where the glyph, which a
blinking cell hides in one phase, or the cursor is, and in its background colour elsewhere (R482 to R487, R491, R492; the
blink phases, the cursor's lines and the colours are D39, the palette PRESUMED: log entry 25). -/
def Obligations.TextSurface : Prop :=
  ∀ (p : Snapshot) (blink : Bool) (r c l g : Nat), p.modeCtrl.getLsbD 1 = false → r < 25 → l < 8 → g < 8 →
    (p.modeCtrl.getLsbD 0 = true → c < 80 →
      Shows (render p blink) (8 * c + g) (8 * r + l) (textColour p blink (r * 80 + c) l g)) ∧
      (p.modeCtrl.getLsbD 0 = false → c < 40 →
        Shows (render p blink) (16 * c + 2 * g) (8 * r + l) (textColour p blink (r * 40 + c) l g) ∧
          Shows (render p blink) (16 * c + 2 * g + 1) (8 * r + l) (textColour p blink (r * 40 + c) l g))

/-- A tick of the render task renders when the dirty flag is set or the blink phase has changed: the surface is then the
render of the CGA's state at that phase, the flag is clear and the host is given the background colour; it writes nothing
else, and nothing the processor can read changes (R480, R481, R493, R495). At a moment between two byte operations the task
ticks, once at least, when its wait is over, and only counts it down before that (the waits are free, U16; which moments
there are is log entry 17): so a tick can fall between the two bytes of a word store, and then shows the low byte new and
the high byte old (R104, R109, R529). -/
def Obligations.RenderTickInvisible : Prop :=
  (∀ (c : Cga) (blink : Bool),
    let d := c.renderTick blink
    d = c.withRender d ∧ d.blinkPhase = blink ∧
      if c.dirty = true ∨ blink ≠ c.lastBlinkPhase then
        d.surface = render ⟨c.vram, c.modeCtrl, c.colorCtrl, c.cursorPos, c.cursorVisible⟩ blink ∧ d.dirty = false ∧
          d.lastBlinkPhase = blink ∧ d.presented = some (colour (c.colorCtrl.toNat % 16))
      else d = { c with blinkPhase := blink }) ∧
    (∀ c : Cga,
      if c.tickWait = 0 then
        ∃ b bs, c.moment = { (c.renderTick b).renderTicks bs with tickWait := c.moment.tickWait, ticks := c.ticks + 1 }
      else c.moment = { c with tickWait := c.tickWait - 1 }) ∧
    (∀ (s : State) (bs : List Bool),
      (∀ a, ({ s with cga := s.cga.renderTicks bs } : State).read8 a = s.read8 a) ∧
        (∀ p, (({ s with cga := s.cga.renderTicks bs } : State).portIn8 p).1 = (s.portIn8 p).1) ∧
        (∀ a, ({ s with cga := s.cga.moment } : State).read8 a = s.read8 a) ∧
        ∀ p, (({ s with cga := s.cga.moment } : State).portIn8 p).1 = (s.portIn8 p).1) ∧
    ∀ (s : State) (a : Addr) (v : Word), memOwner s.memMap a = some .cga → memOwner s.memMap (a + 1) = some .cga →
      s.cga.tickWait = 1 →
      (s.write16 a v).read8 a = loByte v ∧ (s.write16 a v).read8 (a + 1) = hiByte v ∧
        ∃ blink, (s.write16 a v).cga.surface =
          render { s.cga.snapshot with vram := (s.write8 a (loByte v)).cga.vram } blink

/-! ### The PIC -/

/-- `next_pending()` gives the vector of line i exactly when the line is requested and not masked, no line up to it is in
service, and no lower line is both requested and unmasked; and none while an initialisation is under way (R437, D31).
`raise_irq(i)` sets the request bit of line i and nothing else (R436), and `ack` sets its in-service bit and clears its
request bit, or gives the spurious vector (R438, R439, D32). -/
def Obligations.PicSelectsLowestLine : Prop :=
  (∀ (p : Pic) (v : Byte), p.init = .ready →
    (p.nextPending = some v ↔
      ∃ i : Fin 8, v = p.base + BitVec.ofNat 8 i.val ∧ p.irr.getLsbD i = true ∧ p.imr.getLsbD i = false ∧
        (∀ j : Fin 8, j ≤ i → p.isr.getLsbD j = false) ∧
        ∀ k : Fin 8, k < i → (p.irr.getLsbD k && !p.imr.getLsbD k) = false)) ∧
    (∀ p : Pic, p.init ≠ .ready → p.nextPending = none) ∧
    (∀ (p : Pic) (i j : Fin 8), (p.raiseIrq i).irr.getLsbD j = (p.irr.getLsbD j || decide (j = i)) ∧
      p.raiseIrq i = { p with irr := (p.raiseIrq i).irr }) ∧
    ∀ (p : Pic) (v : Byte),
      let i := v.toNat % 8
      (p.irr.getLsbD i = true →
        (p.ack v).1 = v ∧ (p.ack v).2 = { p with isr := (p.ack v).2.isr, irr := (p.ack v).2.irr } ∧
          ∀ j < 8, (p.ack v).2.isr.getLsbD j = (p.isr.getLsbD j || decide (j = i)) ∧
            (p.ack v).2.irr.getLsbD j = (p.irr.getLsbD j && decide (j ≠ i))) ∧
        (p.irr.getLsbD i = false → p.ack v = (p.base + 7, p))

/-- Command and data port of the PIC, write and read: ICW1 starts an initialisation and clears the registers but the
base, OCW3 selects what a read gives, a specific EOI clears its line and a non-specific one the lowest line in
service; the data port takes the initialisation words in order and then the mask (R432 to R435, D30). That these two
ports are 20h and 21h is the PC/XT's layout: log entry 11 (PRESUMED, D28, R431). -/
def Obligations.PicCommandAndDataWords : Prop :=
  ∀ (p : Pic) (v : Byte),
    (v.getLsbD 4 = true →
      p.writeCommand v =
        { p with icw1 := v, icw4 := 0, imr := 0, isr := 0, irr := 0, readIsr := false, init := .wantIcw2 }) ∧
      (v.getLsbD 4 = false → v.getLsbD 3 = true →
        p.writeCommand v = { p with readIsr := if v.getLsbD 1 then v.getLsbD 0 else p.readIsr }) ∧
      (v.getLsbD 4 = false → v.getLsbD 3 = false →
        p.writeCommand v = { p with isr := (p.writeCommand v).isr } ∧
          ∀ i < 8, (p.writeCommand v).isr.getLsbD i =
            (p.isr.getLsbD i &&
              (!v.getLsbD 5 ||
                if v.getLsbD 6 then decide (i ≠ v.toNat % 8)
                else (List.range i).any fun j => p.isr.getLsbD j))) ∧
      (p.init = .ready → p.writeData v = { p with imr := v }) ∧
      (p.init = .wantIcw2 →
        p.writeData v =
          { p with
            base := v &&& 0xF8
            init :=
              if p.icw1.getLsbD 1 = false then .wantIcw3 else if p.icw1.getLsbD 0 = true then .wantIcw4
              else .ready }) ∧
      (p.init = .wantIcw3 →
        p.writeData v = { p with init := if p.icw1.getLsbD 0 = true then .wantIcw4 else .ready }) ∧
      (p.init = .wantIcw4 → p.writeData v = { p with icw4 := v, init := .ready }) ∧
      p.portIn 0x21 = p.imr ∧ p.portIn 0x20 = (if p.readIsr then p.isr else p.irr) ∧
      p.portOut 0x20 v = p.writeCommand v ∧ p.portOut 0x21 v = p.writeData v

/-! ### Interrupts -/

/-- An interrupt entry pushes the flags, `CS` and `IP`, clears `IF` and `TF`, takes `CS:IP` from the vector table as
memory stands after the pushes, and changes nothing else (R404, R405; the order of the pushes is the 8086's). -/
def Obligations.InterruptEntryFrame : Prop :=
  ∀ (s : State) (n : Byte),
    Entered s (s.interrupt n) n ∧ TransferFrame s (s.interrupt n) [.sp] (entryCells s) ∧
      (s.interrupt n).draws = s.draws

/-- `INT n` with no hook and then `IRET` restores `CS`, `IP`, the flags and every register, when the stack is in memory
that keeps what is written (R416, R364, R367). -/
def Obligations.IntThenIretRestores : Prop :=
  ∀ (s : State) (n : Byte), n ∉ s.hooks → (∀ a ∈ entryCells s, Keeps s a = true) →
    ∃ t u, exec (.intImm8 n) s = .next t ∧ exec .iret t = .next u ∧ u.cs = s.cs ∧ u.ip = s.ip ∧ u.flags = s.flags ∧
      u.regs = s.regs

/-- `INT n` without a hook, `INT3`, and `INTO` with `OF` set enter their vectors; `INTO` without `OF` does nothing; a
hooked `INT n` leaves `CS`, `IP`, `IF` and `TF` as they were (R364, R365, R366, R411, D22). That it also leaves the PIC, the
bus tables, the hook table, `Halt` and the count of draws is the model's choice of what a handler may do: log entries 19 and
35 (DESIGN CHOICE). -/
def Obligations.SoftwareInterrupts : Prop :=
  ∀ s : State,
    (∀ n, n ∉ s.hooks → EntersInterrupt (.intImm8 n) s n) ∧
      (∀ n, n ∈ s.hooks → Completes (.intImm8 n) s fun t =>
        t.cs = s.cs ∧ t.ip = s.ip ∧ t.flags.ifl = s.flags.ifl ∧ t.flags.tf = s.flags.tf ∧ t.pic = s.pic ∧
          t.memMap = s.memMap ∧ t.ioMap = s.ioMap ∧ t.hooks = s.hooks ∧ t.halt = s.halt ∧ t.draws = s.draws) ∧
      EntersInterrupt .int3 s 3 ∧ (s.flags.ofl = true → EntersInterrupt .into s 4) ∧
      (s.flags.ofl = false → exec .into s = .next s)

/-- `IRET` pops `IP`, `CS` and the flags, in that order, `SP` rises by 6, and nothing else changes (R367). -/
def Obligations.IretPops : Prop :=
  encode .iret = [0xCF] ∧
    ∀ s : State, Completes .iret s fun t =>
      t =
        { stackRead s 3 with
          ip := stackWord s 0
          cs := stackWord s 1
          flags := flagsOfImage (stackWord s 2)
          regs := { s.regs with sp := s.regs.sp + 6 } }

/-! ### Data transfer -/

/-- `MOV` between registers, memory and immediates: the destination holds the source, memory destinations are stored low
byte first, and nothing else changes (R201, R202, R203, R204). -/
def Obligations.MovRegisterMemoryImmediate : Prop :=
  ∀ s : State,
    (∀ rm r, WritesByte (.movRm8R8 rm r) s (s.place rm) (s.get8 r)) ∧
      (∀ rm r, WritesWord (.movRm16R16 rm r) s (s.place rm) (s.get16 r)) ∧
      (∀ r rm, WritesByte (.movR8Rm8 r rm) s (.reg r) (s.rm8 rm)) ∧
      (∀ r rm, WritesWord (.movR16Rm16 r rm) s (.reg r) (s.rm16 rm)) ∧
      (∀ rm v, WritesByte (.movRm8Imm8 rm v) s (s.place rm) v) ∧
      (∀ rm v, WritesWord (.movRm16Imm16 rm v) s (s.place rm) v) ∧
      (∀ r v, WritesByte (.movR8Imm8 r v) s (.reg r) v) ∧ ∀ r v, WritesWord (.movR16Imm16 r v) s (.reg r) v

/-- `MOV` with a direct offset, in `DS` or the override's segment, and `MOV` to and from a segment register (R205 to
R208). -/
def Obligations.MovDirectAndSegment : Prop :=
  ∀ s : State,
    (∀ off, WritesByte (.movAlMoffs8 off) s (.reg .al) (s.read8 (lin (dataSegment s) off))) ∧
      (∀ off, WritesWord (.movAxMoffs16 off) s (.reg .ax) (s.read16 (lin (dataSegment s) off))) ∧
      (∀ off, WritesByte (.movMoffs8Al off) s (.mem (lin (dataSegment s) off)) (s.get8 .al)) ∧
      (∀ off, WritesWord (.movMoffs16Ax off) s (.mem (lin (dataSegment s) off)) s.regs.ax) ∧
      (∀ rm, WritesWord (.movRm16Es rm) s (s.place rm) s.es) ∧
      (∀ rm, WritesWord (.movRm16Cs rm) s (s.place rm) s.cs) ∧
      (∀ rm, WritesWord (.movRm16Ss rm) s (s.place rm) s.ss) ∧
      (∀ rm, WritesWord (.movRm16Ds rm) s (s.place rm) s.ds) ∧
      (∀ rm, exec (.movEsRm16 rm) s = .next { s.afterRm16 rm with es := s.rm16 rm }) ∧
      (∀ rm, exec (.movSsRm16 rm) s = .next { s.afterRm16 rm with ss := s.rm16 rm }) ∧
      ∀ rm, exec (.movDsRm16 rm) s = .next { s.afterRm16 rm with ds := s.rm16 rm }

/-- The pushes: `SP` drops by 2 and the word is stored there; `PUSH SP` stores the decremented value and the ModR/M form
the old one (R209, R210, R211, R232; D16). -/
def Obligations.Pushes : Prop :=
  ∀ s : State,
    (∀ r, PushesWord (.pushR16 r) s (if r = .sp then s.regs.sp - 2 else s.get16 r)) ∧
      (∀ rm, PushesWord (.pushRm16 rm) s (s.rm16 rm)) ∧ PushesWord .pushEs s s.es ∧ PushesWord .pushCs s s.cs ∧
      PushesWord .pushSs s s.ss ∧ PushesWord .pushDs s s.ds ∧ PushesWord .pushf s s.flags.image

/-- The pops: the destination holds the word at the top of the stack and `SP` rises by 2, except that `POP SP` leaves the
popped value in `SP` (R212, R213, R214, R233). -/
def Obligations.Pops : Prop :=
  ∀ s : State,
    (∀ r, Completes (.popR16 r) s fun t =>
      t.get16 r = stackTop s ∧ (r ≠ .sp → t.regs.sp = s.regs.sp + 2) ∧ WordFrame s t [r, .sp] [] ∧
        t.flags = s.flags ∧ t.draws = s.draws) ∧
      (∀ rm, Completes (.popRm16 rm) s fun t =>
        Holds16 s t (s.place rm) (stackTop s) ∧ (rm ≠ .reg .sp → t.regs.sp = s.regs.sp + 2) ∧
          WordFrame s t (.sp :: placeRegs (s.place rm)) (cells16 (s.place rm)) ∧ t.flags = s.flags ∧
          t.draws = s.draws) ∧
      exec .popEs s = .next { stackRead s 1 with es := stackTop s, regs := { s.regs with sp := s.regs.sp + 2 } } ∧
      exec .popSs s = .next { stackRead s 1 with ss := stackTop s, regs := { s.regs with sp := s.regs.sp + 2 } } ∧
      exec .popDs s = .next { stackRead s 1 with ds := stackTop s, regs := { s.regs with sp := s.regs.sp + 2 } } ∧
      exec .popf s =
        .next { stackRead s 1 with flags := flagsOfImage (stackTop s), regs := { s.regs with sp := s.regs.sp + 2 } }

/-- `XCHG`: each operand holds what the other held (R215, R216). -/
def Obligations.Exchanges : Prop :=
  ∀ s : State,
    (∀ rm r, Completes (.xchgRm8R8 rm r) s fun t =>
      Holds8 s t (s.place rm) (s.get8 r) ∧ t.get8 r = s.rm8 rm ∧
        ByteFrame s t (r :: placeRegs (s.place rm)) (cells8 (s.place rm)) ∧ t.flags = s.flags) ∧
      (∀ rm r, Completes (.xchgRm16R16 rm r) s fun t =>
        Holds16 s t (s.place rm) (s.get16 r) ∧ t.get16 r = s.rm16 rm ∧
          WordFrame s t (r :: placeRegs (s.place rm)) (cells16 (s.place rm)) ∧ t.flags = s.flags) ∧
      ∀ ir ∈ [(Instr.xchgAxCx, Reg16.cx), (.xchgAxDx, .dx), (.xchgAxBx, .bx), (.xchgAxSp, .sp), (.xchgAxBp, .bp),
          (.xchgAxSi, .si), (.xchgAxDi, .di)],
        Completes ir.1 s fun t =>
          t.get16 .ax = s.get16 ir.2 ∧ t.get16 ir.2 = s.get16 .ax ∧ WordFrame s t [.ax, ir.2] [] ∧ t.flags = s.flags

/-- `XLAT` reads the table byte at `BX + AL`; `LEA` gives the offset alone; `LDS` and `LES` load a register and a
segment register from two words, the second at offset `EA + 2` modulo 2^16 (R218 to R221; D10). -/
def Obligations.AddressLoads : Prop :=
  ∀ s : State,
    (∀ m,
      s.farSeg m = (s.afterRead16 (lin (s.eseg m) (s.ea m))).read16 (lin (s.eseg m) (s.ea m + 2)) ∧
        s.afterFar m = (s.afterRead16 (lin (s.eseg m) (s.ea m))).afterRead16 (lin (s.eseg m) (s.ea m + 2))) ∧
    WritesByte .xlat s (.reg .al)
        (s.read8 (lin (dataSegment s) (BitVec.ofNat 16 (s.regs.bx.toNat + (s.get8 .al).toNat)))) ∧
      (∀ r m, WritesWord (.leaR16M r m) s (.reg r) (s.ea m)) ∧
      (∀ r m, Completes (.ldsR16M r m) s fun t =>
        t.get16 r = s.read16 (lin (s.eseg m) (s.ea m)) ∧ t.ds = s.farSeg m ∧ RegistersOutside s t [r] ∧
          t = { s.afterFar m with regs := t.regs, ds := t.ds }) ∧
      ∀ r m, Completes (.lesR16M r m) s fun t =>
        t.get16 r = s.read16 (lin (s.eseg m) (s.ea m)) ∧ t.es = s.farSeg m ∧ RegistersOutside s t [r] ∧
          t = { s.afterFar m with regs := t.regs, es := t.es }

/-- `IN`: the byte of the port, or of the port and then the next one modulo 2^16, in `AL` or `AX`, with the ports' side
effects on their devices. `OUT`: `AL` to the port, and for the word form `AH` to the next port modulo 2^16 after it;
registers, flags and memory stay. A fixed port is zero-extended (R95, R98, R99, R100, R222 to R229; D11). -/
def Obligations.PortInputOutput : Prop :=
  ∀ s : State,
    (ReadsPortByte .inAlDx s s.regs.dx ∧ (∀ n, ReadsPortByte (.inAlImm8 n) s (BitVec.ofNat 16 n.toNat)) ∧
      ReadsPortWord .inAxDx s s.regs.dx ∧ ∀ n, ReadsPortWord (.inAxImm8 n) s (BitVec.ofNat 16 n.toNat)) ∧
      WritesPortByte .outDxAl s s.regs.dx ∧ (∀ n, WritesPortByte (.outImm8Al n) s (BitVec.ofNat 16 n.toNat)) ∧
      WritesPortWord .outDxAx s s.regs.dx ∧ ∀ n, WritesPortWord (.outImm8Ax n) s (BitVec.ofNat 16 n.toNat)

/-- Every instruction does exactly the byte operations of the two buses that its rule lists, in that order and no others:
`busEvents` names them for all 260 instructions, the divide errors, the hooked interrupts and the repeated strings among
them; so does an interrupt entry; and fetching reads the bytes of the instruction, once each (R16, R17, R18, R100, R103,
R105, R267, R312, R404). What shows them is the history of the platform's devices, the model's own (log entry 36, DESIGN
CHOICE): over buses with such a device at every address and port it holds every byte operation there is. The order of the
two bytes of a word and the place of the second (D9), the second word of a far pointer (D10) and the word ports (D11) are
log entry 26, that operands are read before results are written (D46) log entry 28, that bytes are fetched one by one (D8)
log entry 9, one iteration of a repeat a step (D12) log entry 27, what a hook may write log entries 19 and 35, and whether
the quotient -2^(w-1) fits (D18) log entry 4. -/
def Obligations.DeviceAccesses : Prop :=
  ∀ s : State,
    (∀ n, (s.fetched n).devices =
      ((List.range n).reverse.flatMap fun k => readEvents s.memMap (lin s.cs (s.ip + BitVec.ofNat 16 k))) ++
        s.devices) ∧
      (∀ n : Byte, (s.interrupt n).devices = enters s n ++ s.devices) ∧
      ∀ i : Instr, Accesses i s (busEvents s i)

/-- `LAHF` copies the low byte of the FLAGS image to `AH`, and `SAHF` loads five flags from it (R230, R231; D6). -/
def Obligations.FlagTransfers : Prop :=
  ∀ s : State,
    (Completes .lahf s fun t =>
      ((List.range 8).map fun k => (t.get8 .ah).getLsbD k) =
          [s.flags.cf, true, s.flags.pf, false, s.flags.af, false, s.flags.zf, s.flags.sf] ∧
        ByteFrame s t [.ah] [] ∧ t.flags = s.flags) ∧
      exec .sahf s =
        .next
          { s with
            flags :=
              { s.flags with
                sf := s.regs.ax.getLsbD 15, zf := s.regs.ax.getLsbD 14, af := s.regs.ax.getLsbD 12
                pf := s.regs.ax.getLsbD 10, cf := s.regs.ax.getLsbD 8 } }

/-! ### Arithmetic -/

/-- `ADD` and `ADC` in all twenty forms: the destination holds the sum modulo 2^w, and the six status flags are those of
the exact sum (R240, R244, R245, R266;
that opcode 82h is a form of it is log entry 32 (D5), where the second byte of a word goes log entry 26 (D9)). -/
def Obligations.AddAndAdc : Prop :=
  ∀ (s : State) (oc : AluOp × Bool), oc ∈ [(AluOp.add, false), (AluOp.adc, s.flags.cf)] →
    (ForByteForms s oc.1 fun i p a b => Completes i s fun t =>
      ∃ res, AddOutcome s.flags t.flags a b oc.2 res ∧ PutsByte s t p res) ∧
      ForWordForms s oc.1 fun i p a b => Completes i s fun t =>
        ∃ res, AddOutcome s.flags t.flags a b oc.2 res ∧ PutsWord s t p res

/-- `SUB` and `SBB` in all twenty forms: the destination holds the difference modulo 2^w, and the six status flags are
those of the exact difference (R241, R246, R247, R266;
that opcode 82h is a form of it is log entry 32 (D5), where the second byte of a word goes log entry 26 (D9)). -/
def Obligations.SubAndSbb : Prop :=
  ∀ (s : State) (oc : AluOp × Bool), oc ∈ [(AluOp.sub, false), (AluOp.sbb, s.flags.cf)] →
    (ForByteForms s oc.1 fun i p a b => Completes i s fun t =>
      ∃ res, SubOutcome s.flags t.flags a b oc.2 res ∧ PutsByte s t p res) ∧
      ForWordForms s oc.1 fun i p a b => Completes i s fun t =>
        ∃ res, SubOutcome s.flags t.flags a b oc.2 res ∧ PutsWord s t p res

/-- `CMP` in all ten forms: the flags of the difference and nothing written; afterwards `ZF` says equal, `CF` below, and
`SF` differs from `OF` exactly when less (R241, R248, R266;
that opcode 82h is a form of it is log entry 32 (D5)). -/
def Obligations.Compare : Prop :=
  ∀ s : State,
    (ForByteForms s .cmp fun i _ a b => Completes i s fun t =>
      (∃ res, SubOutcome s.flags t.flags a b false res) ∧ PutsNothing s t ∧ t.flags.zf = decide (a = b) ∧
        t.flags.cf = decide (a.toNat < b.toNat) ∧ (t.flags.sf != t.flags.ofl) = decide (a.toInt < b.toInt)) ∧
      ForWordForms s .cmp fun i _ a b => Completes i s fun t =>
        (∃ res, SubOutcome s.flags t.flags a b false res) ∧ PutsNothing s t ∧ t.flags.zf = decide (a = b) ∧
          t.flags.cf = decide (a.toNat < b.toNat) ∧ (t.flags.sf != t.flags.ofl) = decide (a.toInt < b.toInt)

/-- `AND`, `OR` and `XOR` in all thirty forms: each bit of the destination is that of the two operands' bits, `CF` and `OF`
are cleared, and `SF`, `ZF`, `PF` are the result's; `AF` may be anything (R266, R280, R282, R283, R284; D19;
that opcode 82h is a form of them is log entry 32 (D5), where the second byte of a word goes log entry 26 (D9)). -/
def Obligations.LogicalOperations : Prop :=
  ∀ (s : State) (of : AluOp × (Bool → Bool → Bool)),
    of ∈ [(AluOp.and, Bool.and), (AluOp.or, Bool.or), (AluOp.xor, Bool.xor)] →
    (ForByteForms s of.1 fun i p a b => Completes i s fun t =>
      ∃ res, (∀ k < 8, res.getLsbD k = of.2 (a.getLsbD k) (b.getLsbD k)) ∧ LogicOutcome s.flags t.flags res ∧
        PutsByte s t p res) ∧
      ForWordForms s of.1 fun i p a b => Completes i s fun t =>
        ∃ res, (∀ k < 16, res.getLsbD k = of.2 (a.getLsbD k) (b.getLsbD k)) ∧ LogicOutcome s.flags t.flags res ∧
          PutsWord s t p res

/-- `NOT` inverts its operand and writes no flag; `TEST` writes the flags of the bitwise and and no operand (R281, R285;
D19). -/
def Obligations.NotAndTest : Prop :=
  ∀ s : State,
    (∀ rm, WritesByte (.notRm8 rm) s (s.place rm) (BitVec.ofNat 8 (255 - (s.rm8 rm).toNat))) ∧
      (∀ rm, WritesWord (.notRm16 rm) s (s.place rm) (BitVec.ofNat 16 (65535 - (s.rm16 rm).toNat))) ∧
      (∀ v, Completes (.testAlImm8 v) s fun t =>
        LogicOutcome s.flags t.flags (s.get8 .al &&& v) ∧ PutsNothing s t) ∧
      (∀ v, Completes (.testAxImm16 v) s fun t =>
        LogicOutcome s.flags t.flags (s.regs.ax &&& v) ∧ PutsNothing s t) ∧
      (∀ rm r, Completes (.testRm8R8 rm r) s fun t =>
        LogicOutcome s.flags t.flags (s.rm8 rm &&& s.get8 r) ∧ PutsNothing s t) ∧
      (∀ rm r, Completes (.testRm16R16 rm r) s fun t =>
        LogicOutcome s.flags t.flags (s.rm16 rm &&& s.get16 r) ∧ PutsNothing s t) ∧
      (∀ rm v, Completes (.testRm8Imm8 rm v) s fun t =>
        LogicOutcome s.flags t.flags (s.rm8 rm &&& v) ∧ PutsNothing s t) ∧
      ∀ rm v, Completes (.testRm16Imm16 rm v) s fun t =>
        LogicOutcome s.flags t.flags (s.rm16 rm &&& v) ∧ PutsNothing s t

/-- `INC` and `DEC` add and subtract 1 with the flags of the sum and difference but `CF`, which they keep; `NEG`
subtracts from 0 (R249 to R253). -/
def Obligations.IncDecNeg : Prop :=
  ∀ s : State,
    (∀ rm, Completes (.incRm8 rm) s fun t =>
      ∃ res c, AddOutcome s.flags { t.flags with cf := c } (s.rm8 rm) 1 false res ∧ t.flags.cf = s.flags.cf ∧
        PutsByte s t (s.place rm) res) ∧
      (∀ rm, Completes (.incRm16 rm) s fun t =>
        ∃ res c, AddOutcome s.flags { t.flags with cf := c } (s.rm16 rm) 1 false res ∧ t.flags.cf = s.flags.cf ∧
          PutsWord s t (s.place rm) res) ∧
      (∀ r, Completes (.incR16 r) s fun t =>
        ∃ res c, AddOutcome s.flags { t.flags with cf := c } (s.get16 r) 1 false res ∧ t.flags.cf = s.flags.cf ∧
          PutsWord s t (.reg r) res) ∧
      (∀ rm, Completes (.decRm8 rm) s fun t =>
        ∃ res c, SubOutcome s.flags { t.flags with cf := c } (s.rm8 rm) 1 false res ∧ t.flags.cf = s.flags.cf ∧
          PutsByte s t (s.place rm) res) ∧
      (∀ rm, Completes (.decRm16 rm) s fun t =>
        ∃ res c, SubOutcome s.flags { t.flags with cf := c } (s.rm16 rm) 1 false res ∧ t.flags.cf = s.flags.cf ∧
          PutsWord s t (s.place rm) res) ∧
      (∀ r, Completes (.decR16 r) s fun t =>
        ∃ res c, SubOutcome s.flags { t.flags with cf := c } (s.get16 r) 1 false res ∧ t.flags.cf = s.flags.cf ∧
          PutsWord s t (.reg r) res) ∧
      (∀ rm, Completes (.negRm8 rm) s fun t =>
        ∃ res, SubOutcome s.flags t.flags 0 (s.rm8 rm) false res ∧ t.flags.cf = decide (s.rm8 rm ≠ 0) ∧
          t.flags.ofl = decide (s.rm8 rm = 0x80) ∧ PutsByte s t (s.place rm) res) ∧
      ∀ rm, Completes (.negRm16 rm) s fun t =>
        ∃ res, SubOutcome s.flags t.flags 0 (s.rm16 rm) false res ∧ t.flags.cf = decide (s.rm16 rm ≠ 0) ∧
          t.flags.ofl = decide (s.rm16 rm = 0x8000) ∧ PutsWord s t (s.place rm) res

/-- `MUL` and `IMUL`: the exact unsigned or signed product in `AX` or `DX:AX`; `CF` and `OF` say whether it needs the
upper half (R254, R255; the other four flags may be anything, D19). -/
def Obligations.Multiplication : Prop :=
  ∀ s : State,
    (∀ rm, Completes (.mulRm8 rm) s fun t =>
      t.regs.ax.toNat = (s.get8 .al).toNat * (s.rm8 rm).toNat ∧ t.flags.cf = decide (t.get8 .ah ≠ 0) ∧
        t.flags.ofl = t.flags.cf ∧ ControlFlagsSame s.flags t.flags ∧ WordFrame s t [.ax] []) ∧
      (∀ rm, Completes (.mulRm16 rm) s fun t =>
        t.regs.dx.toNat * 65536 + t.regs.ax.toNat = s.regs.ax.toNat * (s.rm16 rm).toNat ∧
          t.flags.cf = decide (t.regs.dx ≠ 0) ∧ t.flags.ofl = t.flags.cf ∧ ControlFlagsSame s.flags t.flags ∧
          WordFrame s t [.ax, .dx] []) ∧
      (∀ rm, Completes (.imulRm8 rm) s fun t =>
        t.regs.ax.toInt = (s.get8 .al).toInt * (s.rm8 rm).toInt ∧
          t.flags.cf = OutOfRange 8 ((s.get8 .al).toInt * (s.rm8 rm).toInt) ∧ t.flags.ofl = t.flags.cf ∧
          ControlFlagsSame s.flags t.flags ∧ WordFrame s t [.ax] []) ∧
      ∀ rm, Completes (.imulRm16 rm) s fun t =>
        (t.regs.dx ++ t.regs.ax).toInt = s.regs.ax.toInt * (s.rm16 rm).toInt ∧
          t.flags.cf = OutOfRange 16 (s.regs.ax.toInt * (s.rm16 rm).toInt) ∧ t.flags.ofl = t.flags.cf ∧
          ControlFlagsSame s.flags t.flags ∧ WordFrame s t [.ax, .dx] []

/-- A division whose divisor is not 0 and whose quotient fits completes: quotient and remainder satisfy the division
equation, the signed quotient truncating toward zero (R242, R256, R257; all six status flags may be anything, D19). -/
def Obligations.DivisionCompletes : Prop :=
  ∀ s : State,
    (∀ rm, (s.rm8 rm).toNat ≠ 0 → s.regs.ax.toNat / (s.rm8 rm).toNat ≤ 0xFF → Completes (.divRm8 rm) s fun t =>
      (t.get8 .al).toNat * (s.rm8 rm).toNat + (t.get8 .ah).toNat = s.regs.ax.toNat ∧
        (t.get8 .ah).toNat < (s.rm8 rm).toNat ∧ ControlFlagsSame s.flags t.flags ∧ WordFrame s t [.ax] []) ∧
      (∀ rm, (s.rm16 rm).toNat ≠ 0 → (s.regs.dx.toNat * 65536 + s.regs.ax.toNat) / (s.rm16 rm).toNat ≤ 0xFFFF →
        Completes (.divRm16 rm) s fun t =>
          t.regs.ax.toNat * (s.rm16 rm).toNat + t.regs.dx.toNat = s.regs.dx.toNat * 65536 + s.regs.ax.toNat ∧
            t.regs.dx.toNat < (s.rm16 rm).toNat ∧ ControlFlagsSame s.flags t.flags ∧ WordFrame s t [.ax, .dx] []) ∧
      (∀ rm, (s.rm8 rm).toInt ≠ 0 → -128 < s.regs.ax.toInt.tdiv (s.rm8 rm).toInt →
        s.regs.ax.toInt.tdiv (s.rm8 rm).toInt ≤ 127 → Completes (.idivRm8 rm) s fun t =>
          (t.get8 .al).toInt = s.regs.ax.toInt.tdiv (s.rm8 rm).toInt ∧
            (t.get8 .al).toInt * (s.rm8 rm).toInt + (t.get8 .ah).toInt = s.regs.ax.toInt ∧
            ControlFlagsSame s.flags t.flags ∧ WordFrame s t [.ax] []) ∧
      ∀ rm, (s.rm16 rm).toInt ≠ 0 → -32768 < (s.regs.dx ++ s.regs.ax).toInt.tdiv (s.rm16 rm).toInt →
        (s.regs.dx ++ s.regs.ax).toInt.tdiv (s.rm16 rm).toInt ≤ 32767 → Completes (.idivRm16 rm) s fun t =>
          t.regs.ax.toInt = (s.regs.dx ++ s.regs.ax).toInt.tdiv (s.rm16 rm).toInt ∧
            t.regs.ax.toInt * (s.rm16 rm).toInt + t.regs.dx.toInt = (s.regs.dx ++ s.regs.ax).toInt ∧
            ControlFlagsSame s.flags t.flags ∧ WordFrame s t [.ax, .dx] []

/-- A divisor of 0 or a quotient that does not fit enters interrupt 0 with nothing else changed, the return address being
the next instruction; the divisor is read before the entry, the vector after it (R105, R256, R257, R262, R267; D17, D46,
log entry 28); a signed quotient of exactly -2^(w-1) does one of the two (D18). -/
def Obligations.DivideErrors : Prop :=
  ∀ s : State,
    (∀ rm, ((s.rm8 rm).toNat = 0 ∨ 0xFF < s.regs.ax.toNat / (s.rm8 rm).toNat) →
      EntersAfter (.divRm8 rm) s (s.afterRm8 rm) 0) ∧
      (∀ rm, ((s.rm16 rm).toNat = 0 ∨ 0xFFFF < (s.regs.dx.toNat * 65536 + s.regs.ax.toNat) / (s.rm16 rm).toNat) →
        EntersAfter (.divRm16 rm) s (s.afterRm16 rm) 0) ∧
      (∀ rm, ((s.rm8 rm).toInt = 0 ∨ s.regs.ax.toInt.tdiv (s.rm8 rm).toInt < -128 ∨
          127 < s.regs.ax.toInt.tdiv (s.rm8 rm).toInt) → EntersAfter (.idivRm8 rm) s (s.afterRm8 rm) 0) ∧
      (∀ rm, ((s.rm16 rm).toInt = 0 ∨ (s.regs.dx ++ s.regs.ax).toInt.tdiv (s.rm16 rm).toInt < -32768 ∨
          32767 < (s.regs.dx ++ s.regs.ax).toInt.tdiv (s.rm16 rm).toInt) →
        EntersAfter (.idivRm16 rm) s (s.afterRm16 rm) 0) ∧
      (∀ rm, (s.rm8 rm).toInt ≠ 0 → s.regs.ax.toInt.tdiv (s.rm8 rm).toInt = -128 →
        EntersAfter (.idivRm8 rm) s (s.afterRm8 rm) 0 ∨
          Completes (.idivRm8 rm) s fun t => (t.get8 .al).toInt = -128 ∧ WordFrame s t [.ax] []) ∧
      (∀ rm, (s.rm16 rm).toInt ≠ 0 → (s.regs.dx ++ s.regs.ax).toInt.tdiv (s.rm16 rm).toInt = -32768 →
        EntersAfter (.idivRm16 rm) s (s.afterRm16 rm) 0 ∨
          Completes (.idivRm16 rm) s fun t => t.regs.ax.toInt = -32768 ∧ WordFrame s t [.ax, .dx] []) ∧
      EntersInterrupt (.aamImm8 0) s 0

/-- `AAA`, `AAS`, `DAA` and `DAS` as the spec's pseudocode computes them over integers (R258 to R261; D27; the flags the
spec leaves undefined may be anything, D19). -/
def Obligations.DecimalAdjusts : Prop :=
  ∀ s : State,
    let al := (s.get8 .al).toNat
    let ah := (s.get8 .ah).toNat
    let low := decide (9 < al % 16) || s.flags.af
    let high := decide (0x99 < al) || s.flags.cf
    (Completes .aaa s fun t =>
      (t.get8 .al).toNat = (if low then al + 6 else al) % 16 ∧
        (t.get8 .ah).toNat = (if low then ah + 1 else ah) % 256 ∧ t.flags.af = low ∧ t.flags.cf = low ∧
        ControlFlagsSame s.flags t.flags ∧ WordFrame s t [.ax] []) ∧
      (Completes .aas s fun t =>
        (t.get8 .al).toNat = (if low then al + 256 - 6 else al) % 16 ∧
          (t.get8 .ah).toNat = (if low then ah + 256 - 1 else ah) % 256 ∧ t.flags.af = low ∧ t.flags.cf = low ∧
          ControlFlagsSame s.flags t.flags ∧ WordFrame s t [.ax] []) ∧
      (Completes .daa s fun t =>
        (t.get8 .al).toNat = (al + (if low then 6 else 0) + if high then 0x60 else 0) % 256 ∧ t.flags.af = low ∧
          t.flags.cf = high ∧ ResultFlags t.flags (t.get8 .al) ∧ ControlFlagsSame s.flags t.flags ∧
          ByteFrame s t [.al] []) ∧
      Completes .das s fun t =>
        (t.get8 .al).toNat = (al + 512 - (if low then 6 else 0) - if high then 0x60 else 0) % 256 ∧
          t.flags.af = low ∧ t.flags.cf = (high || (low && (s.flags.cf || decide (al < 6)))) ∧
          ResultFlags t.flags (t.get8 .al) ∧ ControlFlagsSame s.flags t.flags ∧ ByteFrame s t [.al] []

/-- `AAM` with a base other than 0 divides `AL` by it, `AAD` is its inverse with the given base, `CBW` and `CWD` extend the
sign (R262 to R265; D26; the undefined flags may be anything, D19). -/
def Obligations.AamAadCbwCwd : Prop :=
  ∀ s : State,
    (∀ b, b.toNat ≠ 0 → Completes (.aamImm8 b) s fun t =>
      (t.get8 .ah).toNat = (s.get8 .al).toNat / b.toNat ∧ (t.get8 .al).toNat = (s.get8 .al).toNat % b.toNat ∧
        ResultFlags t.flags (t.get8 .al) ∧ ControlFlagsSame s.flags t.flags ∧ WordFrame s t [.ax] []) ∧
      (∀ b, Completes (.aadImm8 b) s fun t =>
        (t.get8 .al).toNat = ((s.get8 .al).toNat + (s.get8 .ah).toNat * b.toNat) % 256 ∧ t.get8 .ah = 0 ∧
          ResultFlags t.flags (t.get8 .al) ∧ ControlFlagsSame s.flags t.flags ∧ WordFrame s t [.ax] []) ∧
      (Completes .cbw s fun t =>
        t.regs.ax.toInt = (s.get8 .al).toInt ∧ t.flags = s.flags ∧ WordFrame s t [.ax] []) ∧
      Completes .cwd s fun t =>
        (t.regs.dx ++ t.regs.ax).toInt = s.regs.ax.toInt ∧ t.flags = s.flags ∧ WordFrame s t [.dx] []

/-! ### Shifts and rotates -/

/-- `SHL`, `SHR` and `SAR` by 1 and by the whole of `CL`: the operand and `CF` are the closed forms of R294 for every
count, and with a count of 0 nothing changes (R286 to R289, R294; D15, D19). -/
def Obligations.Shifts : Prop :=
  ∀ (s : State) (op : ShiftOp), op ∈ [ShiftOp.shl, .shr, .sar] →
    (∀ (rm : RM Reg8), ∀ i ∈ [(shiftRm8One op rm, 1), (shiftRm8Cl op rm, (s.get8 .cl).toNat)],
      Completes i.1 s fun t =>
        ShiftFlags s.flags t.flags op (s.rm8 rm) i.2 ∧
          PutsByte s t (s.place rm) (shifted op (s.rm8 rm) s.flags.cf i.2)) ∧
      ∀ (rm : RM Reg16), ∀ i ∈ [(shiftRm16One op rm, 1), (shiftRm16Cl op rm, (s.get8 .cl).toNat)],
        Completes i.1 s fun t =>
          ShiftFlags s.flags t.flags op (s.rm16 rm) i.2 ∧
            PutsWord s t (s.place rm) (shifted op (s.rm16 rm) s.flags.cf i.2)

/-- `ROL`, `ROR`, `RCL` and `RCR` by 1 and by the whole of `CL`: the operand and `CF` are the closed forms of R294 for
every count, no other status flag but `OF` changes, and with a count of 0 nothing does (R286, R290 to R294; D15, D19). -/
def Obligations.Rotates : Prop :=
  ∀ (s : State) (op : ShiftOp), op ∈ [ShiftOp.rol, .ror, .rcl, .rcr] →
    (∀ (rm : RM Reg8), ∀ i ∈ [(shiftRm8One op rm, 1), (shiftRm8Cl op rm, (s.get8 .cl).toNat)],
      Completes i.1 s fun t =>
        RotateFlags s.flags t.flags op (s.rm8 rm) i.2 ∧
          PutsByte s t (s.place rm) (shifted op (s.rm8 rm) s.flags.cf i.2)) ∧
      ∀ (rm : RM Reg16), ∀ i ∈ [(shiftRm16One op rm, 1), (shiftRm16Cl op rm, (s.get8 .cl).toNat)],
        Completes i.1 s fun t =>
          RotateFlags s.flags t.flags op (s.rm16 rm) i.2 ∧
            PutsWord s t (s.place rm) (shifted op (s.rm16 rm) s.flags.cf i.2)

/-! ### Strings -/

/-- The ten string instructions without a repeat prefix: one element moved, compared, loaded or stored, the indices moved
by its size in the direction of `DF`, nothing else changed; of two elements the source is read first (R310, R311, R313 to
R317). -/
def Obligations.StringIterations : Prop :=
  ∀ s : State, s.pend.rep = none →
    (Completes .movsb s fun t =>
      ByteStored s t (destinationAt s) (s.read8 (sourceAt s)) ∧ t.regs.si = moved s s.regs.si 1 ∧
        t.regs.di = moved s s.regs.di 1 ∧ t.flags = s.flags ∧ WordFrame s t [.si, .di] [destinationAt s]) ∧
      (Completes .movsw s fun t =>
        WordStored s t (destinationAt s) (s.read16 (sourceAt s)) ∧ t.regs.si = moved s s.regs.si 2 ∧
          t.regs.di = moved s s.regs.di 2 ∧ t.flags = s.flags ∧
          WordFrame s t [.si, .di] [destinationAt s, destinationAt s + 1]) ∧
      (Completes .cmpsb s fun t =>
        (∃ res, SubOutcome s.flags t.flags (s.read8 (sourceAt s))
            ((s.afterRead8 (sourceAt s)).read8 (destinationAt s)) false res) ∧
          t.regs.si = moved s s.regs.si 1 ∧ t.regs.di = moved s s.regs.di 1 ∧ WordFrame s t [.si, .di] []) ∧
      (Completes .cmpsw s fun t =>
        (∃ res, SubOutcome s.flags t.flags (s.read16 (sourceAt s))
            ((s.afterRead16 (sourceAt s)).read16 (destinationAt s)) false res) ∧
          t.regs.si = moved s s.regs.si 2 ∧ t.regs.di = moved s s.regs.di 2 ∧ WordFrame s t [.si, .di] []) ∧
      (Completes .scasb s fun t =>
        (∃ res, SubOutcome s.flags t.flags (s.get8 .al) (s.read8 (destinationAt s)) false res) ∧
          t.regs.di = moved s s.regs.di 1 ∧ WordFrame s t [.di] []) ∧
      (Completes .scasw s fun t =>
        (∃ res, SubOutcome s.flags t.flags s.regs.ax (s.read16 (destinationAt s)) false res) ∧
          t.regs.di = moved s s.regs.di 2 ∧ WordFrame s t [.di] []) ∧
      (Completes .lodsb s fun t =>
        t.get8 .al = s.read8 (sourceAt s) ∧ t.get8 .ah = s.get8 .ah ∧ t.regs.si = moved s s.regs.si 1 ∧
          t.flags = s.flags ∧ WordFrame s t [.ax, .si] []) ∧
      (Completes .lodsw s fun t =>
        t.regs.ax = s.read16 (sourceAt s) ∧ t.regs.si = moved s s.regs.si 2 ∧ t.flags = s.flags ∧
          WordFrame s t [.ax, .si] []) ∧
      (Completes .stosb s fun t =>
        ByteStored s t (destinationAt s) (s.get8 .al) ∧ t.regs.di = moved s s.regs.di 1 ∧ t.flags = s.flags ∧
          WordFrame s t [.di] [destinationAt s]) ∧
      Completes .stosw s fun t =>
        WordStored s t (destinationAt s) s.regs.ax ∧ t.regs.di = moved s s.regs.di 2 ∧ t.flags = s.flags ∧
          WordFrame s t [.di] [destinationAt s, destinationAt s + 1]

/-- A string instruction under a repeat prefix: with `CX = 0` nothing happens; otherwise it is one iteration, `CX` drops
by 1, and `IP` goes back to the first prefix byte exactly when the repeat continues: `CX` not 0, and for a comparison
`ZF` as the prefix asks (R311, R312, R319; one iteration a step is D12). -/
def Obligations.RepeatedStrings : Prop :=
  ∀ (s : State) (r : Rep) (i : Instr), s.pend.rep = some r → isString i = true →
    (s.regs.cx = 0 → exec i s = .next s) ∧
      (s.regs.cx ≠ 0 → ∃ u, exec i { s with pend := { s.pend with rep := none } } = .next u ∧
        exec i s =
          .next
            { u with
              pend := s.pend
              regs := { u.regs with cx := s.regs.cx - 1 }
              ip :=
                if s.regs.cx ≠ 1 ∧ (comparesElements i = true → (u.flags.zf = true ↔ r = .rep)) then s.pend.start
                else s.ip })

/-! ### Control transfer -/

/-- The jumps and loops: relative targets are taken modulo 2^16 from the next instruction, far ones load `CS` too, the
loops decrement `CX` first and test it, and nothing else changes (R331 to R335, R360 to R363; where the second word of a far
pointer in memory is, offset `EA + 2` modulo 2^16, is D10, log entry 26). -/
def Obligations.JumpsAndLoops : Prop :=
  ∀ s : State,
    (∀ rel, JumpsWhen (.jmpRel8 rel) s true rel.toInt) ∧ (∀ rel, JumpsWhen (.jmpRel16 rel) s true rel.toInt) ∧
      (∀ rm, exec (.jmpRm16 rm) s = .next { s.afterRm16 rm with ip := s.rm16 rm }) ∧
      (∀ off seg, exec (.jmpFarPtr off seg) s = .next { s with ip := off, cs := seg }) ∧
      (∀ m, exec (.jmpFarM m) s =
        .next
          { (s.afterRead16 (lin (s.eseg m) (s.ea m))).afterRead16 (lin (s.eseg m) (s.ea m + 2)) with
            ip := s.read16 (lin (s.eseg m) (s.ea m))
            cs := (s.afterRead16 (lin (s.eseg m) (s.ea m))).read16 (lin (s.eseg m) (s.ea m + 2)) }) ∧
      (∀ ic ∈ [(Instr.loopRel8, true), (.loopzRel8, s.flags.zf), (.loopnzRel8, !s.flags.zf)], ∀ rel,
        Completes (ic.1 rel) s fun t =>
          t = { s with ip := t.ip, regs := { s.regs with cx := s.regs.cx - 1 } } ∧
            (t.ip.toNat : Int) =
              if s.regs.cx ≠ 1 ∧ ic.2 = true then ((s.ip.toNat : Int) + rel.toInt) % 65536 else s.ip.toNat) ∧
      ∀ rel, JumpsWhen (.jcxzRel8 rel) s (decide (s.regs.cx = 0)) rel.toInt

/-- The sixteen conditional jumps, each on its own condition on the flags, which it leaves alone (R344 to R359, R369). -/
def Obligations.ConditionalJumps : Prop :=
  ∀ (s : State) (rel : Byte),
    let f := s.flags
    JumpsWhen (.joRel8 rel) s f.ofl rel.toInt ∧ JumpsWhen (.jnoRel8 rel) s (!f.ofl) rel.toInt ∧
      JumpsWhen (.jbRel8 rel) s f.cf rel.toInt ∧ JumpsWhen (.jnbRel8 rel) s (!f.cf) rel.toInt ∧
      JumpsWhen (.jzRel8 rel) s f.zf rel.toInt ∧ JumpsWhen (.jnzRel8 rel) s (!f.zf) rel.toInt ∧
      JumpsWhen (.jbeRel8 rel) s (f.cf || f.zf) rel.toInt ∧
      JumpsWhen (.jnbeRel8 rel) s (!f.cf && !f.zf) rel.toInt ∧
      JumpsWhen (.jsRel8 rel) s f.sf rel.toInt ∧ JumpsWhen (.jnsRel8 rel) s (!f.sf) rel.toInt ∧
      JumpsWhen (.jpRel8 rel) s f.pf rel.toInt ∧ JumpsWhen (.jnpRel8 rel) s (!f.pf) rel.toInt ∧
      JumpsWhen (.jlRel8 rel) s (f.sf != f.ofl) rel.toInt ∧
      JumpsWhen (.jnlRel8 rel) s (f.sf == f.ofl) rel.toInt ∧
      JumpsWhen (.jleRel8 rel) s (f.zf || f.sf != f.ofl) rel.toInt ∧
      JumpsWhen (.jnleRel8 rel) s (!f.zf && f.sf == f.ofl) rel.toInt

/-- The calls push the address of the next instruction, far ones `CS` first, and go to the target; the returns pop it,
far ones `CS` too, and release parameters (R336 to R343; D46, log entry 28; where the second word of a far pointer in
memory is, offset `EA + 2` modulo 2^16, is D10, log entry 26). -/
def Obligations.CallsAndReturns : Prop :=
  ∀ s : State,
    (∀ rel, Completes (.callRel16 rel) s fun t =>
      WordStored s t (lin s.ss (s.regs.sp - 2)) s.ip ∧ t.ip = s.ip + rel ∧ t.cs = s.cs ∧
        t.regs = { s.regs with sp := s.regs.sp - 2 } ∧ t.flags = s.flags ∧
        TransferFrame s t [.sp] [lin s.ss (s.regs.sp - 2), lin s.ss (s.regs.sp - 2) + 1]) ∧
      (∀ rm, Completes (.callRm16 rm) s fun t =>
        WordStored s t (lin s.ss (s.regs.sp - 2)) s.ip ∧ t.ip = s.rm16 rm ∧ t.cs = s.cs ∧
          t.regs = { s.regs with sp := s.regs.sp - 2 } ∧ t.flags = s.flags ∧
          TransferFrame s t [.sp] [lin s.ss (s.regs.sp - 2), lin s.ss (s.regs.sp - 2) + 1]) ∧
      (∀ off seg, Completes (.callFarPtr off seg) s fun t =>
        WordStored s t (lin s.ss (s.regs.sp - 2)) s.cs ∧ WordStored s t (lin s.ss (s.regs.sp - 4)) s.ip ∧
          t.ip = off ∧ t.cs = seg ∧ t.regs = { s.regs with sp := s.regs.sp - 4 } ∧ t.flags = s.flags ∧
          TransferFrame s t [.sp]
            [lin s.ss (s.regs.sp - 2), lin s.ss (s.regs.sp - 2) + 1, lin s.ss (s.regs.sp - 4),
              lin s.ss (s.regs.sp - 4) + 1]) ∧
      (∀ m, Completes (.callFarM m) s fun t =>
        WordStored s t (lin s.ss (s.regs.sp - 2)) s.cs ∧ WordStored s t (lin s.ss (s.regs.sp - 4)) s.ip ∧
          t.ip = s.read16 (lin (s.eseg m) (s.ea m)) ∧
          t.cs = (s.afterRead16 (lin (s.eseg m) (s.ea m))).read16 (lin (s.eseg m) (s.ea m + 2)) ∧
          t.regs = { s.regs with sp := s.regs.sp - 4 } ∧ t.flags = s.flags ∧
          TransferFrame s t [.sp]
            [lin s.ss (s.regs.sp - 2), lin s.ss (s.regs.sp - 2) + 1, lin s.ss (s.regs.sp - 4),
              lin s.ss (s.regs.sp - 4) + 1]) ∧
      exec .ret s = .next { stackRead s 1 with ip := stackTop s, regs := { s.regs with sp := s.regs.sp + 2 } } ∧
      (∀ n, exec (.retImm16 n) s =
        .next { stackRead s 1 with ip := stackTop s, regs := { s.regs with sp := s.regs.sp + 2 + n } }) ∧
      exec .retf s =
        .next
          { stackRead s 2 with
            ip := stackWord s 0, cs := stackWord s 1
            regs := { s.regs with sp := s.regs.sp + 4 } } ∧
      ∀ n, exec (.retfImm16 n) s =
        .next
          { stackRead s 2 with
            ip := stackWord s 0, cs := stackWord s 1
            regs := { s.regs with sp := s.regs.sp + 4 + n } }

/-! ### Processor control -/

/-- The seven flag instructions write exactly their flag; `NOP`, `WAIT` and `ESC` change nothing; each prefix byte adds
exactly what it names to the pending prefixes (R370 to R377, R379 to R383, R132). That `WAIT` ends at once and `ESC` does
nothing is log entry 29 (D24, D25), and that a prefix byte is an instruction that adds to the pending prefixes, `LOCK` among
them, log entry 8 (DEDUCED, D13, D14). -/
def Obligations.ProcessorControl : Prop :=
  ∀ s : State,
    exec .clc s = .next { s with flags := { s.flags with cf := false } } ∧
      exec .stc s = .next { s with flags := { s.flags with cf := true } } ∧
      exec .cmc s = .next { s with flags := { s.flags with cf := !s.flags.cf } } ∧
      exec .cld s = .next { s with flags := { s.flags with df := false } } ∧
      exec .std s = .next { s with flags := { s.flags with df := true } } ∧
      exec .cli s = .next { s with flags := { s.flags with ifl := false } } ∧
      exec .sti s = .next { s with flags := { s.flags with ifl := true } } ∧ exec .nop s = .next s ∧
      exec .wait s = .next s ∧ (∀ op rm, exec (.escRm op rm) s = .next s) ∧
      exec .prefixEs s = .next { s with pend := { s.pend with ovr := some .es } } ∧
      exec .prefixCs s = .next { s with pend := { s.pend with ovr := some .cs } } ∧
      exec .prefixSs s = .next { s with pend := { s.pend with ovr := some .ss } } ∧
      exec .prefixDs s = .next { s with pend := { s.pend with ovr := some .ds } } ∧
      exec .prefixLock s = .next { s with pend := { s.pend with lock := true } } ∧
      exec .prefixRepne s = .next { s with pend := { s.pend with rep := some .repne } } ∧
      exec .prefixRep s = .next { s with pend := { s.pend with rep := some .rep } } ∧
      [encode .clc, encode .stc, encode .cmc, encode .cld, encode .std, encode .cli, encode .sti, encode .nop,
          encode .wait] =
        [[0xF8], [0xF9], [0xF5], [0xFC], [0xFD], [0xFA], [0xFB], [0x90], [0x9B]]

/-! ### The whole machine -/

/-- Only far transfers, interrupts, returns and divide errors change `CS` (R36, R525); only `POPF` and `IRET` set `TF`
(R39); no instruction changes the bus tables, the hook table, the clock, the host's turns or `Debug` (R42, R49, R50), none
clears `Halt`, and what has happened to the platform's devices is only added to. -/
def Obligations.OnlyTheseWriteControlState : Prop :=
  ∀ (i : Instr) (s t : State), exec i s = .next t →
    (t.cs ≠ s.cs → mayWriteCs i = true) ∧ (t.flags.tf = true → s.flags.tf = false → maySetTf i = true) ∧
      t.memMap = s.memMap ∧ t.ioMap = s.ioMap ∧ t.hooks = s.hooks ∧ t.now = s.now ∧ t.debug = s.debug ∧
      t.inputs = s.inputs ∧ t.turns = s.turns ∧ t.timeWait = s.timeWait ∧ (s.halt = true → t.halt = true) ∧
      (s.ended = true → t.ended = true) ∧ HistoryGrows s t

/-! ### Fairness -/

/-- On every run that never stops, scanlines advance infinitely often and render ticks occur infinitely often, whatever
the waits are that the model draws; and such a run is fair as R530 asks when, besides, every request is eventually seen with
`IF` set, which depends on the program (R471, R480, R530, U16; the draws are log entry 37). -/
def Obligations.FairClocks : Prop :=
  ∀ r : Nat → State, IsRun r → ScanlinesAdvance r ∧ TicksOccur r ∧ (FairRun r ↔ RequestsSeen r)
end

