-- ==== Sys2Proof/Laws/State.lean ====
section
/-! SUPPORT. One lemma per field per state update: what the update leaves in each field of `State`, so that no later
proof unfolds a record update. -/

namespace Sys2Proof.Machine

/-! ### `set16` -/

@[simp] theorem State.set16_regs (s : State) (r : Reg16) (v : Word) : (s.set16 r v).regs = s.regs.put r v := rfl
@[simp] theorem State.set16_cs (s : State) (r : Reg16) (v : Word) : (s.set16 r v).cs = s.cs := rfl
@[simp] theorem State.set16_ds (s : State) (r : Reg16) (v : Word) : (s.set16 r v).ds = s.ds := rfl
@[simp] theorem State.set16_es (s : State) (r : Reg16) (v : Word) : (s.set16 r v).es = s.es := rfl
@[simp] theorem State.set16_ss (s : State) (r : Reg16) (v : Word) : (s.set16 r v).ss = s.ss := rfl
@[simp] theorem State.set16_ip (s : State) (r : Reg16) (v : Word) : (s.set16 r v).ip = s.ip := rfl
@[simp] theorem State.set16_flags (s : State) (r : Reg16) (v : Word) : (s.set16 r v).flags = s.flags := rfl
@[simp] theorem State.set16_halt (s : State) (r : Reg16) (v : Word) : (s.set16 r v).halt = s.halt := rfl
@[simp] theorem State.set16_debug (s : State) (r : Reg16) (v : Word) : (s.set16 r v).debug = s.debug := rfl
@[simp] theorem State.set16_pend (s : State) (r : Reg16) (v : Word) : (s.set16 r v).pend = s.pend := rfl
@[simp] theorem State.set16_mem (s : State) (r : Reg16) (v : Word) : (s.set16 r v).mem = s.mem := rfl
@[simp] theorem State.set16_memMap (s : State) (r : Reg16) (v : Word) : (s.set16 r v).memMap = s.memMap := rfl
@[simp] theorem State.set16_ioMap (s : State) (r : Reg16) (v : Word) : (s.set16 r v).ioMap = s.ioMap := rfl
@[simp] theorem State.set16_pic (s : State) (r : Reg16) (v : Word) : (s.set16 r v).pic = s.pic := rfl
@[simp] theorem State.set16_cga (s : State) (r : Reg16) (v : Word) : (s.set16 r v).cga = s.cga := rfl
@[simp] theorem State.set16_hooks (s : State) (r : Reg16) (v : Word) : (s.set16 r v).hooks = s.hooks := rfl
@[simp] theorem State.set16_now (s : State) (r : Reg16) (v : Word) : (s.set16 r v).now = s.now := rfl
@[simp] theorem State.set16_devices (s : State) (r : Reg16) (v : Word) : (s.set16 r v).devices = s.devices := rfl
@[simp] theorem State.set16_inputs (s : State) (r : Reg16) (v : Word) : (s.set16 r v).inputs = s.inputs := rfl
@[simp] theorem State.set16_turns (s : State) (r : Reg16) (v : Word) : (s.set16 r v).turns = s.turns := rfl
@[simp] theorem State.set16_timeWait (s : State) (r : Reg16) (v : Word) : (s.set16 r v).timeWait = s.timeWait := rfl
@[simp] theorem State.set16_draws (s : State) (r : Reg16) (v : Word) : (s.set16 r v).draws = s.draws := rfl
@[simp] theorem State.set16_cycles (s : State) (r : Reg16) (v : Word) : (s.set16 r v).cycles = s.cycles := rfl
@[simp] theorem State.set16_ended (s : State) (r : Reg16) (v : Word) : (s.set16 r v).ended = s.ended := rfl

/-! ### `setIp` -/

@[simp] theorem State.setIp_regs (s : State) (v : Word) : (s.setIp v).regs = s.regs := rfl
@[simp] theorem State.setIp_cs (s : State) (v : Word) : (s.setIp v).cs = s.cs := rfl
@[simp] theorem State.setIp_ds (s : State) (v : Word) : (s.setIp v).ds = s.ds := rfl
@[simp] theorem State.setIp_es (s : State) (v : Word) : (s.setIp v).es = s.es := rfl
@[simp] theorem State.setIp_ss (s : State) (v : Word) : (s.setIp v).ss = s.ss := rfl
@[simp] theorem State.setIp_ip (s : State) (v : Word) : (s.setIp v).ip = v := rfl
@[simp] theorem State.setIp_flags (s : State) (v : Word) : (s.setIp v).flags = s.flags := rfl
@[simp] theorem State.setIp_halt (s : State) (v : Word) : (s.setIp v).halt = s.halt := rfl
@[simp] theorem State.setIp_debug (s : State) (v : Word) : (s.setIp v).debug = s.debug := rfl
@[simp] theorem State.setIp_pend (s : State) (v : Word) : (s.setIp v).pend = s.pend := rfl
@[simp] theorem State.setIp_mem (s : State) (v : Word) : (s.setIp v).mem = s.mem := rfl
@[simp] theorem State.setIp_memMap (s : State) (v : Word) : (s.setIp v).memMap = s.memMap := rfl
@[simp] theorem State.setIp_ioMap (s : State) (v : Word) : (s.setIp v).ioMap = s.ioMap := rfl
@[simp] theorem State.setIp_pic (s : State) (v : Word) : (s.setIp v).pic = s.pic := rfl
@[simp] theorem State.setIp_cga (s : State) (v : Word) : (s.setIp v).cga = s.cga := rfl
@[simp] theorem State.setIp_hooks (s : State) (v : Word) : (s.setIp v).hooks = s.hooks := rfl
@[simp] theorem State.setIp_now (s : State) (v : Word) : (s.setIp v).now = s.now := rfl
@[simp] theorem State.setIp_devices (s : State) (v : Word) : (s.setIp v).devices = s.devices := rfl
@[simp] theorem State.setIp_inputs (s : State) (v : Word) : (s.setIp v).inputs = s.inputs := rfl
@[simp] theorem State.setIp_turns (s : State) (v : Word) : (s.setIp v).turns = s.turns := rfl
@[simp] theorem State.setIp_timeWait (s : State) (v : Word) : (s.setIp v).timeWait = s.timeWait := rfl
@[simp] theorem State.setIp_draws (s : State) (v : Word) : (s.setIp v).draws = s.draws := rfl
@[simp] theorem State.setIp_cycles (s : State) (v : Word) : (s.setIp v).cycles = s.cycles := rfl
@[simp] theorem State.setIp_ended (s : State) (v : Word) : (s.setIp v).ended = s.ended := rfl

/-! ### `setCs` -/

@[simp] theorem State.setCs_regs (s : State) (v : Word) : (s.setCs v).regs = s.regs := rfl
@[simp] theorem State.setCs_cs (s : State) (v : Word) : (s.setCs v).cs = v := rfl
@[simp] theorem State.setCs_ds (s : State) (v : Word) : (s.setCs v).ds = s.ds := rfl
@[simp] theorem State.setCs_es (s : State) (v : Word) : (s.setCs v).es = s.es := rfl
@[simp] theorem State.setCs_ss (s : State) (v : Word) : (s.setCs v).ss = s.ss := rfl
@[simp] theorem State.setCs_ip (s : State) (v : Word) : (s.setCs v).ip = s.ip := rfl
@[simp] theorem State.setCs_flags (s : State) (v : Word) : (s.setCs v).flags = s.flags := rfl
@[simp] theorem State.setCs_halt (s : State) (v : Word) : (s.setCs v).halt = s.halt := rfl
@[simp] theorem State.setCs_debug (s : State) (v : Word) : (s.setCs v).debug = s.debug := rfl
@[simp] theorem State.setCs_pend (s : State) (v : Word) : (s.setCs v).pend = s.pend := rfl
@[simp] theorem State.setCs_mem (s : State) (v : Word) : (s.setCs v).mem = s.mem := rfl
@[simp] theorem State.setCs_memMap (s : State) (v : Word) : (s.setCs v).memMap = s.memMap := rfl
@[simp] theorem State.setCs_ioMap (s : State) (v : Word) : (s.setCs v).ioMap = s.ioMap := rfl
@[simp] theorem State.setCs_pic (s : State) (v : Word) : (s.setCs v).pic = s.pic := rfl
@[simp] theorem State.setCs_cga (s : State) (v : Word) : (s.setCs v).cga = s.cga := rfl
@[simp] theorem State.setCs_hooks (s : State) (v : Word) : (s.setCs v).hooks = s.hooks := rfl
@[simp] theorem State.setCs_now (s : State) (v : Word) : (s.setCs v).now = s.now := rfl
@[simp] theorem State.setCs_devices (s : State) (v : Word) : (s.setCs v).devices = s.devices := rfl
@[simp] theorem State.setCs_inputs (s : State) (v : Word) : (s.setCs v).inputs = s.inputs := rfl
@[simp] theorem State.setCs_turns (s : State) (v : Word) : (s.setCs v).turns = s.turns := rfl
@[simp] theorem State.setCs_timeWait (s : State) (v : Word) : (s.setCs v).timeWait = s.timeWait := rfl
@[simp] theorem State.setCs_draws (s : State) (v : Word) : (s.setCs v).draws = s.draws := rfl
@[simp] theorem State.setCs_cycles (s : State) (v : Word) : (s.setCs v).cycles = s.cycles := rfl
@[simp] theorem State.setCs_ended (s : State) (v : Word) : (s.setCs v).ended = s.ended := rfl

/-! ### `setSp` -/

@[simp] theorem State.setSp_regs (s : State) (v : Word) : (s.setSp v).regs = { s.regs with sp := v } := rfl
@[simp] theorem State.setSp_cs (s : State) (v : Word) : (s.setSp v).cs = s.cs := rfl
@[simp] theorem State.setSp_ds (s : State) (v : Word) : (s.setSp v).ds = s.ds := rfl
@[simp] theorem State.setSp_es (s : State) (v : Word) : (s.setSp v).es = s.es := rfl
@[simp] theorem State.setSp_ss (s : State) (v : Word) : (s.setSp v).ss = s.ss := rfl
@[simp] theorem State.setSp_ip (s : State) (v : Word) : (s.setSp v).ip = s.ip := rfl
@[simp] theorem State.setSp_flags (s : State) (v : Word) : (s.setSp v).flags = s.flags := rfl
@[simp] theorem State.setSp_halt (s : State) (v : Word) : (s.setSp v).halt = s.halt := rfl
@[simp] theorem State.setSp_debug (s : State) (v : Word) : (s.setSp v).debug = s.debug := rfl
@[simp] theorem State.setSp_pend (s : State) (v : Word) : (s.setSp v).pend = s.pend := rfl
@[simp] theorem State.setSp_mem (s : State) (v : Word) : (s.setSp v).mem = s.mem := rfl
@[simp] theorem State.setSp_memMap (s : State) (v : Word) : (s.setSp v).memMap = s.memMap := rfl
@[simp] theorem State.setSp_ioMap (s : State) (v : Word) : (s.setSp v).ioMap = s.ioMap := rfl
@[simp] theorem State.setSp_pic (s : State) (v : Word) : (s.setSp v).pic = s.pic := rfl
@[simp] theorem State.setSp_cga (s : State) (v : Word) : (s.setSp v).cga = s.cga := rfl
@[simp] theorem State.setSp_hooks (s : State) (v : Word) : (s.setSp v).hooks = s.hooks := rfl
@[simp] theorem State.setSp_now (s : State) (v : Word) : (s.setSp v).now = s.now := rfl
@[simp] theorem State.setSp_devices (s : State) (v : Word) : (s.setSp v).devices = s.devices := rfl
@[simp] theorem State.setSp_inputs (s : State) (v : Word) : (s.setSp v).inputs = s.inputs := rfl
@[simp] theorem State.setSp_turns (s : State) (v : Word) : (s.setSp v).turns = s.turns := rfl
@[simp] theorem State.setSp_timeWait (s : State) (v : Word) : (s.setSp v).timeWait = s.timeWait := rfl
@[simp] theorem State.setSp_draws (s : State) (v : Word) : (s.setSp v).draws = s.draws := rfl
@[simp] theorem State.setSp_cycles (s : State) (v : Word) : (s.setSp v).cycles = s.cycles := rfl
@[simp] theorem State.setSp_ended (s : State) (v : Word) : (s.setSp v).ended = s.ended := rfl

/-! ### `setFlags` -/

@[simp] theorem State.setFlags_regs (s : State) (f : Flags) : (s.setFlags f).regs = s.regs := rfl
@[simp] theorem State.setFlags_cs (s : State) (f : Flags) : (s.setFlags f).cs = s.cs := rfl
@[simp] theorem State.setFlags_ds (s : State) (f : Flags) : (s.setFlags f).ds = s.ds := rfl
@[simp] theorem State.setFlags_es (s : State) (f : Flags) : (s.setFlags f).es = s.es := rfl
@[simp] theorem State.setFlags_ss (s : State) (f : Flags) : (s.setFlags f).ss = s.ss := rfl
@[simp] theorem State.setFlags_ip (s : State) (f : Flags) : (s.setFlags f).ip = s.ip := rfl
@[simp] theorem State.setFlags_flags (s : State) (f : Flags) : (s.setFlags f).flags = f := rfl
@[simp] theorem State.setFlags_halt (s : State) (f : Flags) : (s.setFlags f).halt = s.halt := rfl
@[simp] theorem State.setFlags_debug (s : State) (f : Flags) : (s.setFlags f).debug = s.debug := rfl
@[simp] theorem State.setFlags_pend (s : State) (f : Flags) : (s.setFlags f).pend = s.pend := rfl
@[simp] theorem State.setFlags_mem (s : State) (f : Flags) : (s.setFlags f).mem = s.mem := rfl
@[simp] theorem State.setFlags_memMap (s : State) (f : Flags) : (s.setFlags f).memMap = s.memMap := rfl
@[simp] theorem State.setFlags_ioMap (s : State) (f : Flags) : (s.setFlags f).ioMap = s.ioMap := rfl
@[simp] theorem State.setFlags_pic (s : State) (f : Flags) : (s.setFlags f).pic = s.pic := rfl
@[simp] theorem State.setFlags_cga (s : State) (f : Flags) : (s.setFlags f).cga = s.cga := rfl
@[simp] theorem State.setFlags_hooks (s : State) (f : Flags) : (s.setFlags f).hooks = s.hooks := rfl
@[simp] theorem State.setFlags_now (s : State) (f : Flags) : (s.setFlags f).now = s.now := rfl
@[simp] theorem State.setFlags_devices (s : State) (f : Flags) : (s.setFlags f).devices = s.devices := rfl
@[simp] theorem State.setFlags_inputs (s : State) (f : Flags) : (s.setFlags f).inputs = s.inputs := rfl
@[simp] theorem State.setFlags_turns (s : State) (f : Flags) : (s.setFlags f).turns = s.turns := rfl
@[simp] theorem State.setFlags_timeWait (s : State) (f : Flags) : (s.setFlags f).timeWait = s.timeWait := rfl
@[simp] theorem State.setFlags_draws (s : State) (f : Flags) : (s.setFlags f).draws = s.draws := rfl
@[simp] theorem State.setFlags_cycles (s : State) (f : Flags) : (s.setFlags f).cycles = s.cycles := rfl
@[simp] theorem State.setFlags_ended (s : State) (f : Flags) : (s.setFlags f).ended = s.ended := rfl

/-! ### `drew` -/

@[simp] theorem State.drew_regs (s : State) (b : Bool) : (s.drew b).regs = s.regs := rfl
@[simp] theorem State.drew_cs (s : State) (b : Bool) : (s.drew b).cs = s.cs := rfl
@[simp] theorem State.drew_ds (s : State) (b : Bool) : (s.drew b).ds = s.ds := rfl
@[simp] theorem State.drew_es (s : State) (b : Bool) : (s.drew b).es = s.es := rfl
@[simp] theorem State.drew_ss (s : State) (b : Bool) : (s.drew b).ss = s.ss := rfl
@[simp] theorem State.drew_ip (s : State) (b : Bool) : (s.drew b).ip = s.ip := rfl
@[simp] theorem State.drew_flags (s : State) (b : Bool) : (s.drew b).flags = s.flags := rfl
@[simp] theorem State.drew_halt (s : State) (b : Bool) : (s.drew b).halt = s.halt := rfl
@[simp] theorem State.drew_debug (s : State) (b : Bool) : (s.drew b).debug = s.debug := rfl
@[simp] theorem State.drew_pend (s : State) (b : Bool) : (s.drew b).pend = s.pend := rfl
@[simp] theorem State.drew_mem (s : State) (b : Bool) : (s.drew b).mem = s.mem := rfl
@[simp] theorem State.drew_memMap (s : State) (b : Bool) : (s.drew b).memMap = s.memMap := rfl
@[simp] theorem State.drew_ioMap (s : State) (b : Bool) : (s.drew b).ioMap = s.ioMap := rfl
@[simp] theorem State.drew_pic (s : State) (b : Bool) : (s.drew b).pic = s.pic := rfl
@[simp] theorem State.drew_cga (s : State) (b : Bool) : (s.drew b).cga = s.cga := rfl
@[simp] theorem State.drew_hooks (s : State) (b : Bool) : (s.drew b).hooks = s.hooks := rfl
@[simp] theorem State.drew_now (s : State) (b : Bool) : (s.drew b).now = s.now := rfl
@[simp] theorem State.drew_devices (s : State) (b : Bool) : (s.drew b).devices = s.devices := rfl
@[simp] theorem State.drew_inputs (s : State) (b : Bool) : (s.drew b).inputs = s.inputs := rfl
@[simp] theorem State.drew_turns (s : State) (b : Bool) : (s.drew b).turns = s.turns := rfl
@[simp] theorem State.drew_timeWait (s : State) (b : Bool) : (s.drew b).timeWait = s.timeWait := rfl
@[simp] theorem State.drew_draws (s : State) (b : Bool) : (s.drew b).draws = if b then s.draws + 1 else s.draws := rfl
@[simp] theorem State.drew_cycles (s : State) (b : Bool) : (s.drew b).cycles = s.cycles := rfl
@[simp] theorem State.drew_ended (s : State) (b : Bool) : (s.drew b).ended = s.ended := rfl

/-! ### `raiseIrq` -/

@[simp] theorem State.raiseIrq_regs (s : State) (i : Fin 8) : (s.raiseIrq i).regs = s.regs := rfl
@[simp] theorem State.raiseIrq_cs (s : State) (i : Fin 8) : (s.raiseIrq i).cs = s.cs := rfl
@[simp] theorem State.raiseIrq_ds (s : State) (i : Fin 8) : (s.raiseIrq i).ds = s.ds := rfl
@[simp] theorem State.raiseIrq_es (s : State) (i : Fin 8) : (s.raiseIrq i).es = s.es := rfl
@[simp] theorem State.raiseIrq_ss (s : State) (i : Fin 8) : (s.raiseIrq i).ss = s.ss := rfl
@[simp] theorem State.raiseIrq_ip (s : State) (i : Fin 8) : (s.raiseIrq i).ip = s.ip := rfl
@[simp] theorem State.raiseIrq_flags (s : State) (i : Fin 8) : (s.raiseIrq i).flags = s.flags := rfl
@[simp] theorem State.raiseIrq_halt (s : State) (i : Fin 8) : (s.raiseIrq i).halt = s.halt := rfl
@[simp] theorem State.raiseIrq_debug (s : State) (i : Fin 8) : (s.raiseIrq i).debug = s.debug := rfl
@[simp] theorem State.raiseIrq_pend (s : State) (i : Fin 8) : (s.raiseIrq i).pend = s.pend := rfl
@[simp] theorem State.raiseIrq_mem (s : State) (i : Fin 8) : (s.raiseIrq i).mem = s.mem := rfl
@[simp] theorem State.raiseIrq_memMap (s : State) (i : Fin 8) : (s.raiseIrq i).memMap = s.memMap := rfl
@[simp] theorem State.raiseIrq_ioMap (s : State) (i : Fin 8) : (s.raiseIrq i).ioMap = s.ioMap := rfl
@[simp] theorem State.raiseIrq_pic (s : State) (i : Fin 8) : (s.raiseIrq i).pic = s.pic.raiseIrq i := rfl
@[simp] theorem State.raiseIrq_cga (s : State) (i : Fin 8) : (s.raiseIrq i).cga = s.cga := rfl
@[simp] theorem State.raiseIrq_hooks (s : State) (i : Fin 8) : (s.raiseIrq i).hooks = s.hooks := rfl
@[simp] theorem State.raiseIrq_now (s : State) (i : Fin 8) : (s.raiseIrq i).now = s.now := rfl
@[simp] theorem State.raiseIrq_devices (s : State) (i : Fin 8) : (s.raiseIrq i).devices = s.devices := rfl
@[simp] theorem State.raiseIrq_inputs (s : State) (i : Fin 8) : (s.raiseIrq i).inputs = s.inputs := rfl
@[simp] theorem State.raiseIrq_turns (s : State) (i : Fin 8) : (s.raiseIrq i).turns = s.turns := rfl
@[simp] theorem State.raiseIrq_timeWait (s : State) (i : Fin 8) : (s.raiseIrq i).timeWait = s.timeWait := rfl
@[simp] theorem State.raiseIrq_draws (s : State) (i : Fin 8) : (s.raiseIrq i).draws = s.draws := rfl
@[simp] theorem State.raiseIrq_cycles (s : State) (i : Fin 8) : (s.raiseIrq i).cycles = s.cycles := rfl
@[simp] theorem State.raiseIrq_ended (s : State) (i : Fin 8) : (s.raiseIrq i).ended = s.ended := rfl

/-! ### `override` -/

@[simp] theorem State.override_regs (s : State) (r : SReg) : (s.override r).regs = s.regs := rfl
@[simp] theorem State.override_cs (s : State) (r : SReg) : (s.override r).cs = s.cs := rfl
@[simp] theorem State.override_ds (s : State) (r : SReg) : (s.override r).ds = s.ds := rfl
@[simp] theorem State.override_es (s : State) (r : SReg) : (s.override r).es = s.es := rfl
@[simp] theorem State.override_ss (s : State) (r : SReg) : (s.override r).ss = s.ss := rfl
@[simp] theorem State.override_ip (s : State) (r : SReg) : (s.override r).ip = s.ip := rfl
@[simp] theorem State.override_flags (s : State) (r : SReg) : (s.override r).flags = s.flags := rfl
@[simp] theorem State.override_halt (s : State) (r : SReg) : (s.override r).halt = s.halt := rfl
@[simp] theorem State.override_debug (s : State) (r : SReg) : (s.override r).debug = s.debug := rfl
@[simp] theorem State.override_pend (s : State) (r : SReg) : (s.override r).pend = { s.pend with ovr := some r } := rfl
@[simp] theorem State.override_mem (s : State) (r : SReg) : (s.override r).mem = s.mem := rfl
@[simp] theorem State.override_memMap (s : State) (r : SReg) : (s.override r).memMap = s.memMap := rfl
@[simp] theorem State.override_ioMap (s : State) (r : SReg) : (s.override r).ioMap = s.ioMap := rfl
@[simp] theorem State.override_pic (s : State) (r : SReg) : (s.override r).pic = s.pic := rfl
@[simp] theorem State.override_cga (s : State) (r : SReg) : (s.override r).cga = s.cga := rfl
@[simp] theorem State.override_hooks (s : State) (r : SReg) : (s.override r).hooks = s.hooks := rfl
@[simp] theorem State.override_now (s : State) (r : SReg) : (s.override r).now = s.now := rfl
@[simp] theorem State.override_devices (s : State) (r : SReg) : (s.override r).devices = s.devices := rfl
@[simp] theorem State.override_inputs (s : State) (r : SReg) : (s.override r).inputs = s.inputs := rfl
@[simp] theorem State.override_turns (s : State) (r : SReg) : (s.override r).turns = s.turns := rfl
@[simp] theorem State.override_timeWait (s : State) (r : SReg) : (s.override r).timeWait = s.timeWait := rfl
@[simp] theorem State.override_draws (s : State) (r : SReg) : (s.override r).draws = s.draws := rfl
@[simp] theorem State.override_cycles (s : State) (r : SReg) : (s.override r).cycles = s.cycles := rfl
@[simp] theorem State.override_ended (s : State) (r : SReg) : (s.override r).ended = s.ended := rfl

/-! ### `repeatPrefix` -/

@[simp] theorem State.repeatPrefix_regs (s : State) (r : Rep) : (s.repeatPrefix r).regs = s.regs := rfl
@[simp] theorem State.repeatPrefix_cs (s : State) (r : Rep) : (s.repeatPrefix r).cs = s.cs := rfl
@[simp] theorem State.repeatPrefix_ds (s : State) (r : Rep) : (s.repeatPrefix r).ds = s.ds := rfl
@[simp] theorem State.repeatPrefix_es (s : State) (r : Rep) : (s.repeatPrefix r).es = s.es := rfl
@[simp] theorem State.repeatPrefix_ss (s : State) (r : Rep) : (s.repeatPrefix r).ss = s.ss := rfl
@[simp] theorem State.repeatPrefix_ip (s : State) (r : Rep) : (s.repeatPrefix r).ip = s.ip := rfl
@[simp] theorem State.repeatPrefix_flags (s : State) (r : Rep) : (s.repeatPrefix r).flags = s.flags := rfl
@[simp] theorem State.repeatPrefix_halt (s : State) (r : Rep) : (s.repeatPrefix r).halt = s.halt := rfl
@[simp] theorem State.repeatPrefix_debug (s : State) (r : Rep) : (s.repeatPrefix r).debug = s.debug := rfl
@[simp] theorem State.repeatPrefix_pend (s : State) (r : Rep) : (s.repeatPrefix r).pend = { s.pend with rep := some r } := rfl
@[simp] theorem State.repeatPrefix_mem (s : State) (r : Rep) : (s.repeatPrefix r).mem = s.mem := rfl
@[simp] theorem State.repeatPrefix_memMap (s : State) (r : Rep) : (s.repeatPrefix r).memMap = s.memMap := rfl
@[simp] theorem State.repeatPrefix_ioMap (s : State) (r : Rep) : (s.repeatPrefix r).ioMap = s.ioMap := rfl
@[simp] theorem State.repeatPrefix_pic (s : State) (r : Rep) : (s.repeatPrefix r).pic = s.pic := rfl
@[simp] theorem State.repeatPrefix_cga (s : State) (r : Rep) : (s.repeatPrefix r).cga = s.cga := rfl
@[simp] theorem State.repeatPrefix_hooks (s : State) (r : Rep) : (s.repeatPrefix r).hooks = s.hooks := rfl
@[simp] theorem State.repeatPrefix_now (s : State) (r : Rep) : (s.repeatPrefix r).now = s.now := rfl
@[simp] theorem State.repeatPrefix_devices (s : State) (r : Rep) : (s.repeatPrefix r).devices = s.devices := rfl
@[simp] theorem State.repeatPrefix_inputs (s : State) (r : Rep) : (s.repeatPrefix r).inputs = s.inputs := rfl
@[simp] theorem State.repeatPrefix_turns (s : State) (r : Rep) : (s.repeatPrefix r).turns = s.turns := rfl
@[simp] theorem State.repeatPrefix_timeWait (s : State) (r : Rep) : (s.repeatPrefix r).timeWait = s.timeWait := rfl
@[simp] theorem State.repeatPrefix_draws (s : State) (r : Rep) : (s.repeatPrefix r).draws = s.draws := rfl
@[simp] theorem State.repeatPrefix_cycles (s : State) (r : Rep) : (s.repeatPrefix r).cycles = s.cycles := rfl
@[simp] theorem State.repeatPrefix_ended (s : State) (r : Rep) : (s.repeatPrefix r).ended = s.ended := rfl

/-! ### `begun` -/

@[simp] theorem State.begun_regs (s : State) : (s.begun).regs = s.regs := rfl
@[simp] theorem State.begun_cs (s : State) : (s.begun).cs = s.cs := rfl
@[simp] theorem State.begun_ds (s : State) : (s.begun).ds = s.ds := rfl
@[simp] theorem State.begun_es (s : State) : (s.begun).es = s.es := rfl
@[simp] theorem State.begun_ss (s : State) : (s.begun).ss = s.ss := rfl
@[simp] theorem State.begun_ip (s : State) : (s.begun).ip = s.ip := rfl
@[simp] theorem State.begun_flags (s : State) : (s.begun).flags = s.flags := rfl
@[simp] theorem State.begun_halt (s : State) : (s.begun).halt = s.halt := rfl
@[simp] theorem State.begun_debug (s : State) : (s.begun).debug = s.debug := rfl
@[simp] theorem State.begun_pend (s : State) : (s.begun).pend = { noPending with start := s.ip } := rfl
@[simp] theorem State.begun_mem (s : State) : (s.begun).mem = s.mem := rfl
@[simp] theorem State.begun_memMap (s : State) : (s.begun).memMap = s.memMap := rfl
@[simp] theorem State.begun_ioMap (s : State) : (s.begun).ioMap = s.ioMap := rfl
@[simp] theorem State.begun_pic (s : State) : (s.begun).pic = s.pic := rfl
@[simp] theorem State.begun_cga (s : State) : (s.begun).cga = s.cga := rfl
@[simp] theorem State.begun_hooks (s : State) : (s.begun).hooks = s.hooks := rfl
@[simp] theorem State.begun_now (s : State) : (s.begun).now = s.now := rfl
@[simp] theorem State.begun_devices (s : State) : (s.begun).devices = s.devices := rfl
@[simp] theorem State.begun_inputs (s : State) : (s.begun).inputs = s.inputs := rfl
@[simp] theorem State.begun_turns (s : State) : (s.begun).turns = s.turns := rfl
@[simp] theorem State.begun_timeWait (s : State) : (s.begun).timeWait = s.timeWait := rfl
@[simp] theorem State.begun_draws (s : State) : (s.begun).draws = s.draws := rfl
@[simp] theorem State.begun_cycles (s : State) : (s.begun).cycles = s.cycles := rfl
@[simp] theorem State.begun_ended (s : State) : (s.begun).ended = s.ended := rfl

/-! ### `counted`: the count returned and the draw it comes from -/

@[simp] theorem State.counted_regs (s : State) : (s.counted).regs = s.regs := rfl
@[simp] theorem State.counted_cs (s : State) : (s.counted).cs = s.cs := rfl
@[simp] theorem State.counted_ds (s : State) : (s.counted).ds = s.ds := rfl
@[simp] theorem State.counted_es (s : State) : (s.counted).es = s.es := rfl
@[simp] theorem State.counted_ss (s : State) : (s.counted).ss = s.ss := rfl
@[simp] theorem State.counted_ip (s : State) : (s.counted).ip = s.ip := rfl
@[simp] theorem State.counted_flags (s : State) : (s.counted).flags = s.flags := rfl
@[simp] theorem State.counted_halt (s : State) : (s.counted).halt = s.halt := rfl
@[simp] theorem State.counted_debug (s : State) : (s.counted).debug = s.debug := rfl
@[simp] theorem State.counted_pend (s : State) : (s.counted).pend = s.pend := rfl
@[simp] theorem State.counted_mem (s : State) : (s.counted).mem = s.mem := rfl
@[simp] theorem State.counted_memMap (s : State) : (s.counted).memMap = s.memMap := rfl
@[simp] theorem State.counted_ioMap (s : State) : (s.counted).ioMap = s.ioMap := rfl
@[simp] theorem State.counted_pic (s : State) : (s.counted).pic = s.pic := rfl
@[simp] theorem State.counted_cga (s : State) : (s.counted).cga = s.cga := rfl
@[simp] theorem State.counted_hooks (s : State) : (s.counted).hooks = s.hooks := rfl
@[simp] theorem State.counted_now (s : State) : (s.counted).now = s.now := rfl
@[simp] theorem State.counted_devices (s : State) : (s.counted).devices = s.devices := rfl
@[simp] theorem State.counted_inputs (s : State) : (s.counted).inputs = s.inputs := rfl
@[simp] theorem State.counted_turns (s : State) : (s.counted).turns = s.turns := rfl
@[simp] theorem State.counted_timeWait (s : State) : (s.counted).timeWait = s.timeWait := rfl
@[simp] theorem State.counted_draws (s : State) : (s.counted).draws = s.draws + 1 := rfl
@[simp] theorem State.counted_cycles (s : State) : (s.counted).cycles = s.drawnCycles := rfl
@[simp] theorem State.counted_ended (s : State) : (s.counted).ended = s.ended := rfl

/-! ### `stepPeripherals` -/

@[simp] theorem State.stepPeripherals_regs (s : State) (e : Nat) : (s.stepPeripherals e).regs = s.regs := rfl
@[simp] theorem State.stepPeripherals_cs (s : State) (e : Nat) : (s.stepPeripherals e).cs = s.cs := rfl
@[simp] theorem State.stepPeripherals_ds (s : State) (e : Nat) : (s.stepPeripherals e).ds = s.ds := rfl
@[simp] theorem State.stepPeripherals_es (s : State) (e : Nat) : (s.stepPeripherals e).es = s.es := rfl
@[simp] theorem State.stepPeripherals_ss (s : State) (e : Nat) : (s.stepPeripherals e).ss = s.ss := rfl
@[simp] theorem State.stepPeripherals_ip (s : State) (e : Nat) : (s.stepPeripherals e).ip = s.ip := rfl
@[simp] theorem State.stepPeripherals_flags (s : State) (e : Nat) : (s.stepPeripherals e).flags = s.flags := rfl
@[simp] theorem State.stepPeripherals_halt (s : State) (e : Nat) : (s.stepPeripherals e).halt = s.halt := rfl
@[simp] theorem State.stepPeripherals_debug (s : State) (e : Nat) : (s.stepPeripherals e).debug = s.debug := rfl
@[simp] theorem State.stepPeripherals_pend (s : State) (e : Nat) : (s.stepPeripherals e).pend = s.pend := rfl
@[simp] theorem State.stepPeripherals_mem (s : State) (e : Nat) : (s.stepPeripherals e).mem = s.mem := rfl
@[simp] theorem State.stepPeripherals_memMap (s : State) (e : Nat) : (s.stepPeripherals e).memMap = s.memMap := rfl
@[simp] theorem State.stepPeripherals_ioMap (s : State) (e : Nat) : (s.stepPeripherals e).ioMap = s.ioMap := rfl
@[simp] theorem State.stepPeripherals_pic (s : State) (e : Nat) : (s.stepPeripherals e).pic = s.pic := rfl
@[simp] theorem State.stepPeripherals_cga (s : State) (e : Nat) : (s.stepPeripherals e).cga = s.cga.step s.cycles (s.now + e) := rfl
@[simp] theorem State.stepPeripherals_hooks (s : State) (e : Nat) : (s.stepPeripherals e).hooks = s.hooks := rfl
@[simp] theorem State.stepPeripherals_now (s : State) (e : Nat) : (s.stepPeripherals e).now = s.now + e := rfl
@[simp] theorem State.stepPeripherals_devices (s : State) (e : Nat) : (s.stepPeripherals e).devices = .step s.cycles :: s.devices := rfl
@[simp] theorem State.stepPeripherals_inputs (s : State) (e : Nat) : (s.stepPeripherals e).inputs = s.inputs := rfl
@[simp] theorem State.stepPeripherals_turns (s : State) (e : Nat) : (s.stepPeripherals e).turns = s.turns := rfl
@[simp] theorem State.stepPeripherals_timeWait (s : State) (e : Nat) : (s.stepPeripherals e).timeWait = s.timeWait := rfl
@[simp] theorem State.stepPeripherals_draws (s : State) (e : Nat) : (s.stepPeripherals e).draws = s.draws := rfl
@[simp] theorem State.stepPeripherals_cycles (s : State) (e : Nat) : (s.stepPeripherals e).cycles = s.cycles := rfl
@[simp] theorem State.stepPeripherals_ended (s : State) (e : Nat) : (s.stepPeripherals e).ended = s.ended := rfl

/-! ### `note`: the history of the platform's devices and nothing else -/

@[simp] theorem State.note_regs (s : State) (es : List DeviceEvent) : (s.note es).regs = s.regs := rfl
@[simp] theorem State.note_cs (s : State) (es : List DeviceEvent) : (s.note es).cs = s.cs := rfl
@[simp] theorem State.note_ds (s : State) (es : List DeviceEvent) : (s.note es).ds = s.ds := rfl
@[simp] theorem State.note_es (s : State) (es : List DeviceEvent) : (s.note es).es = s.es := rfl
@[simp] theorem State.note_ss (s : State) (es : List DeviceEvent) : (s.note es).ss = s.ss := rfl
@[simp] theorem State.note_ip (s : State) (es : List DeviceEvent) : (s.note es).ip = s.ip := rfl
@[simp] theorem State.note_flags (s : State) (es : List DeviceEvent) : (s.note es).flags = s.flags := rfl
@[simp] theorem State.note_halt (s : State) (es : List DeviceEvent) : (s.note es).halt = s.halt := rfl
@[simp] theorem State.note_debug (s : State) (es : List DeviceEvent) : (s.note es).debug = s.debug := rfl
@[simp] theorem State.note_pend (s : State) (es : List DeviceEvent) : (s.note es).pend = s.pend := rfl
@[simp] theorem State.note_mem (s : State) (es : List DeviceEvent) : (s.note es).mem = s.mem := rfl
@[simp] theorem State.note_memMap (s : State) (es : List DeviceEvent) : (s.note es).memMap = s.memMap := rfl
@[simp] theorem State.note_ioMap (s : State) (es : List DeviceEvent) : (s.note es).ioMap = s.ioMap := rfl
@[simp] theorem State.note_pic (s : State) (es : List DeviceEvent) : (s.note es).pic = s.pic := rfl
@[simp] theorem State.note_cga (s : State) (es : List DeviceEvent) : (s.note es).cga = s.cga := rfl
@[simp] theorem State.note_hooks (s : State) (es : List DeviceEvent) : (s.note es).hooks = s.hooks := rfl
@[simp] theorem State.note_now (s : State) (es : List DeviceEvent) : (s.note es).now = s.now := rfl
@[simp] theorem State.note_devices (s : State) (es : List DeviceEvent) : (s.note es).devices = es ++ s.devices := rfl
@[simp] theorem State.note_inputs (s : State) (es : List DeviceEvent) : (s.note es).inputs = s.inputs := rfl
@[simp] theorem State.note_turns (s : State) (es : List DeviceEvent) : (s.note es).turns = s.turns := rfl
@[simp] theorem State.note_timeWait (s : State) (es : List DeviceEvent) : (s.note es).timeWait = s.timeWait := rfl
@[simp] theorem State.note_draws (s : State) (es : List DeviceEvent) : (s.note es).draws = s.draws := rfl
@[simp] theorem State.note_cycles (s : State) (es : List DeviceEvent) : (s.note es).cycles = s.cycles := rfl
@[simp] theorem State.note_ended (s : State) (es : List DeviceEvent) : (s.note es).ended = s.ended := rfl

/-! ### `renderMoment`: the CGA and nothing else -/

@[simp] theorem State.renderMoment_regs (s : State) : (s.renderMoment).regs = s.regs := rfl
@[simp] theorem State.renderMoment_cs (s : State) : (s.renderMoment).cs = s.cs := rfl
@[simp] theorem State.renderMoment_ds (s : State) : (s.renderMoment).ds = s.ds := rfl
@[simp] theorem State.renderMoment_es (s : State) : (s.renderMoment).es = s.es := rfl
@[simp] theorem State.renderMoment_ss (s : State) : (s.renderMoment).ss = s.ss := rfl
@[simp] theorem State.renderMoment_ip (s : State) : (s.renderMoment).ip = s.ip := rfl
@[simp] theorem State.renderMoment_flags (s : State) : (s.renderMoment).flags = s.flags := rfl
@[simp] theorem State.renderMoment_halt (s : State) : (s.renderMoment).halt = s.halt := rfl
@[simp] theorem State.renderMoment_debug (s : State) : (s.renderMoment).debug = s.debug := rfl
@[simp] theorem State.renderMoment_pend (s : State) : (s.renderMoment).pend = s.pend := rfl
@[simp] theorem State.renderMoment_mem (s : State) : (s.renderMoment).mem = s.mem := rfl
@[simp] theorem State.renderMoment_memMap (s : State) : (s.renderMoment).memMap = s.memMap := rfl
@[simp] theorem State.renderMoment_ioMap (s : State) : (s.renderMoment).ioMap = s.ioMap := rfl
@[simp] theorem State.renderMoment_pic (s : State) : (s.renderMoment).pic = s.pic := rfl
@[simp] theorem State.renderMoment_cga (s : State) : (s.renderMoment).cga = s.cga.moment := rfl
@[simp] theorem State.renderMoment_hooks (s : State) : (s.renderMoment).hooks = s.hooks := rfl
@[simp] theorem State.renderMoment_now (s : State) : (s.renderMoment).now = s.now := rfl
@[simp] theorem State.renderMoment_devices (s : State) : (s.renderMoment).devices = s.devices := rfl
@[simp] theorem State.renderMoment_inputs (s : State) : (s.renderMoment).inputs = s.inputs := rfl
@[simp] theorem State.renderMoment_turns (s : State) : (s.renderMoment).turns = s.turns := rfl
@[simp] theorem State.renderMoment_timeWait (s : State) : (s.renderMoment).timeWait = s.timeWait := rfl
@[simp] theorem State.renderMoment_draws (s : State) : (s.renderMoment).draws = s.draws := rfl
@[simp] theorem State.renderMoment_cycles (s : State) : (s.renderMoment).cycles = s.cycles := rfl
@[simp] theorem State.renderMoment_ended (s : State) : (s.renderMoment).ended = s.ended := rfl

/-! ### `fetch8`: `IP` and the history of the platform's devices -/

@[simp] theorem State.fetch8_regs (s : State) : (s.fetch8.2).regs = s.regs := rfl
@[simp] theorem State.fetch8_cs (s : State) : (s.fetch8.2).cs = s.cs := rfl
@[simp] theorem State.fetch8_ds (s : State) : (s.fetch8.2).ds = s.ds := rfl
@[simp] theorem State.fetch8_es (s : State) : (s.fetch8.2).es = s.es := rfl
@[simp] theorem State.fetch8_ss (s : State) : (s.fetch8.2).ss = s.ss := rfl
@[simp] theorem State.fetch8_ip (s : State) : (s.fetch8.2).ip = s.ip + 1 := rfl
@[simp] theorem State.fetch8_flags (s : State) : (s.fetch8.2).flags = s.flags := rfl
@[simp] theorem State.fetch8_halt (s : State) : (s.fetch8.2).halt = s.halt := rfl
@[simp] theorem State.fetch8_debug (s : State) : (s.fetch8.2).debug = s.debug := rfl
@[simp] theorem State.fetch8_pend (s : State) : (s.fetch8.2).pend = s.pend := rfl
@[simp] theorem State.fetch8_mem (s : State) : (s.fetch8.2).mem = s.mem := rfl
@[simp] theorem State.fetch8_memMap (s : State) : (s.fetch8.2).memMap = s.memMap := rfl
@[simp] theorem State.fetch8_ioMap (s : State) : (s.fetch8.2).ioMap = s.ioMap := rfl
@[simp] theorem State.fetch8_pic (s : State) : (s.fetch8.2).pic = s.pic := rfl
@[simp] theorem State.fetch8_cga (s : State) : (s.fetch8.2).cga = s.cga := rfl
@[simp] theorem State.fetch8_hooks (s : State) : (s.fetch8.2).hooks = s.hooks := rfl
@[simp] theorem State.fetch8_now (s : State) : (s.fetch8.2).now = s.now := rfl
@[simp] theorem State.fetch8_devices (s : State) : (s.fetch8.2).devices = readEvents s.memMap (lin s.cs s.ip) ++ s.devices := rfl
@[simp] theorem State.fetch8_inputs (s : State) : (s.fetch8.2).inputs = s.inputs := rfl
@[simp] theorem State.fetch8_turns (s : State) : (s.fetch8.2).turns = s.turns := rfl
@[simp] theorem State.fetch8_timeWait (s : State) : (s.fetch8.2).timeWait = s.timeWait := rfl
@[simp] theorem State.fetch8_draws (s : State) : (s.fetch8.2).draws = s.draws := rfl
@[simp] theorem State.fetch8_cycles (s : State) : (s.fetch8.2).cycles = s.cycles := rfl
@[simp] theorem State.fetch8_ended (s : State) : (s.fetch8.2).ended = s.ended := rfl

/-! ### Reading: every read is a `note` of what it does to the platform's devices -/

@[simp] theorem State.note_nil (s : State) : s.note [] = s := rfl

@[simp] theorem State.note_note (s : State) (es fs : List DeviceEvent) : (s.note es).note fs = s.note (fs ++ es) := by
  simp [State.note]

theorem State.afterRead8_eq (s : State) (a : Addr) : s.afterRead8 a = s.note (readEvents s.memMap a) := rfl

theorem State.afterRead16_eq (s : State) (a : Addr) : s.afterRead16 a = s.note (wordReadEvents s.memMap a) := rfl

/-- A word read is its two byte reads, one after the other (R16). -/
theorem State.afterRead16_bytes (s : State) (a : Addr) : s.afterRead16 a = (s.afterRead8 a).afterRead8 (a + 1) := by
  simp [State.afterRead16, State.afterRead8, wordReadEvents]

theorem State.afterRm8_eq (s : State) (rm : RM Reg8) : s.afterRm8 rm = s.note (loadEvents8 s.memMap (s.place rm)) := rfl

theorem State.afterRm16_eq (s : State) (rm : RM Reg16) : s.afterRm16 rm = s.note (loadEvents16 s.memMap (s.place rm)) :=
  rfl

theorem State.afterFar_eq (s : State) (m : Mem) :
    s.afterFar m = s.note (wordReadEvents s.memMap (s.memAddr2 m) ++ wordReadEvents s.memMap (s.memAddr m)) := by
  rw [State.afterFar, State.afterRead16_eq, State.afterRead16_eq, State.note_note]; rfl

@[simp] theorem State.get16_note (s : State) (es : List DeviceEvent) (r : Reg16) : (s.note es).get16 r = s.get16 r := rfl
@[simp] theorem State.get8_note (s : State) (es : List DeviceEvent) (r : Reg8) : (s.note es).get8 r = s.get8 r := rfl
@[simp] theorem State.getS_note (s : State) (es : List DeviceEvent) (r : SReg) : (s.note es).getS r = s.getS r := by
  cases r <;> rfl
@[simp] theorem State.place_note {ρ : Type} (s : State) (es : List DeviceEvent) (rm : RM ρ) :
    (s.note es).place rm = s.place rm := by cases rm <;> rfl
@[simp] theorem State.freeFlags_note (s : State) (es : List DeviceEvent) : (s.note es).freeFlags = s.freeFlags := rfl

/-! ### `setS` -/

@[simp] theorem State.setS_regs (s : State) (r : SReg) (v : Word) : (s.setS r v).regs = s.regs := by cases r <;> rfl
@[simp] theorem State.setS_cs (s : State) (r : SReg) (v : Word) :
    (s.setS r v).cs = if r = .cs then v else s.cs := by cases r <;> rfl
@[simp] theorem State.setS_ds (s : State) (r : SReg) (v : Word) :
    (s.setS r v).ds = if r = .ds then v else s.ds := by cases r <;> rfl
@[simp] theorem State.setS_es (s : State) (r : SReg) (v : Word) :
    (s.setS r v).es = if r = .es then v else s.es := by cases r <;> rfl
@[simp] theorem State.setS_ss (s : State) (r : SReg) (v : Word) :
    (s.setS r v).ss = if r = .ss then v else s.ss := by cases r <;> rfl
@[simp] theorem State.setS_ip (s : State) (r : SReg) (v : Word) : (s.setS r v).ip = s.ip := by cases r <;> rfl
@[simp] theorem State.setS_flags (s : State) (r : SReg) (v : Word) : (s.setS r v).flags = s.flags := by cases r <;> rfl
@[simp] theorem State.setS_halt (s : State) (r : SReg) (v : Word) : (s.setS r v).halt = s.halt := by cases r <;> rfl
@[simp] theorem State.setS_debug (s : State) (r : SReg) (v : Word) : (s.setS r v).debug = s.debug := by cases r <;> rfl
@[simp] theorem State.setS_pend (s : State) (r : SReg) (v : Word) : (s.setS r v).pend = s.pend := by cases r <;> rfl
@[simp] theorem State.setS_mem (s : State) (r : SReg) (v : Word) : (s.setS r v).mem = s.mem := by cases r <;> rfl
@[simp] theorem State.setS_memMap (s : State) (r : SReg) (v : Word) : (s.setS r v).memMap = s.memMap := by cases r <;> rfl
@[simp] theorem State.setS_ioMap (s : State) (r : SReg) (v : Word) : (s.setS r v).ioMap = s.ioMap := by cases r <;> rfl
@[simp] theorem State.setS_pic (s : State) (r : SReg) (v : Word) : (s.setS r v).pic = s.pic := by cases r <;> rfl
@[simp] theorem State.setS_cga (s : State) (r : SReg) (v : Word) : (s.setS r v).cga = s.cga := by cases r <;> rfl
@[simp] theorem State.setS_hooks (s : State) (r : SReg) (v : Word) : (s.setS r v).hooks = s.hooks := by cases r <;> rfl
@[simp] theorem State.setS_now (s : State) (r : SReg) (v : Word) : (s.setS r v).now = s.now := by cases r <;> rfl
@[simp] theorem State.setS_devices (s : State) (r : SReg) (v : Word) : (s.setS r v).devices = s.devices := by cases r <;> rfl
@[simp] theorem State.setS_inputs (s : State) (r : SReg) (v : Word) : (s.setS r v).inputs = s.inputs := by cases r <;> rfl
@[simp] theorem State.setS_turns (s : State) (r : SReg) (v : Word) : (s.setS r v).turns = s.turns := by cases r <;> rfl
@[simp] theorem State.setS_timeWait (s : State) (r : SReg) (v : Word) : (s.setS r v).timeWait = s.timeWait := by cases r <;> rfl
@[simp] theorem State.setS_draws (s : State) (r : SReg) (v : Word) : (s.setS r v).draws = s.draws := by cases r <;> rfl
@[simp] theorem State.setS_cycles (s : State) (r : SReg) (v : Word) : (s.setS r v).cycles = s.cycles := by cases r <;> rfl
@[simp] theorem State.setS_ended (s : State) (r : SReg) (v : Word) : (s.setS r v).ended = s.ended := by cases r <;> rfl

/-! ### `write8`: only the memory, the CGA and the platform's devices may change -/

@[simp] theorem State.write8_regs (s : State) (a : Addr) (v : Byte) : (s.write8 a v).regs = s.regs := by
  unfold State.write8; split <;> rfl
@[simp] theorem State.write8_cs (s : State) (a : Addr) (v : Byte) : (s.write8 a v).cs = s.cs := by
  unfold State.write8; split <;> rfl
@[simp] theorem State.write8_ds (s : State) (a : Addr) (v : Byte) : (s.write8 a v).ds = s.ds := by
  unfold State.write8; split <;> rfl
@[simp] theorem State.write8_es (s : State) (a : Addr) (v : Byte) : (s.write8 a v).es = s.es := by
  unfold State.write8; split <;> rfl
@[simp] theorem State.write8_ss (s : State) (a : Addr) (v : Byte) : (s.write8 a v).ss = s.ss := by
  unfold State.write8; split <;> rfl
@[simp] theorem State.write8_ip (s : State) (a : Addr) (v : Byte) : (s.write8 a v).ip = s.ip := by
  unfold State.write8; split <;> rfl
@[simp] theorem State.write8_flags (s : State) (a : Addr) (v : Byte) : (s.write8 a v).flags = s.flags := by
  unfold State.write8; split <;> rfl
@[simp] theorem State.write8_halt (s : State) (a : Addr) (v : Byte) : (s.write8 a v).halt = s.halt := by
  unfold State.write8; split <;> rfl
@[simp] theorem State.write8_debug (s : State) (a : Addr) (v : Byte) : (s.write8 a v).debug = s.debug := by
  unfold State.write8; split <;> rfl
@[simp] theorem State.write8_pend (s : State) (a : Addr) (v : Byte) : (s.write8 a v).pend = s.pend := by
  unfold State.write8; split <;> rfl
@[simp] theorem State.write8_memMap (s : State) (a : Addr) (v : Byte) : (s.write8 a v).memMap = s.memMap := by
  unfold State.write8; split <;> rfl
@[simp] theorem State.write8_ioMap (s : State) (a : Addr) (v : Byte) : (s.write8 a v).ioMap = s.ioMap := by
  unfold State.write8; split <;> rfl
@[simp] theorem State.write8_pic (s : State) (a : Addr) (v : Byte) : (s.write8 a v).pic = s.pic := by
  unfold State.write8; split <;> rfl
@[simp] theorem State.write8_hooks (s : State) (a : Addr) (v : Byte) : (s.write8 a v).hooks = s.hooks := by
  unfold State.write8; split <;> rfl
@[simp] theorem State.write8_now (s : State) (a : Addr) (v : Byte) : (s.write8 a v).now = s.now := by
  unfold State.write8; split <;> rfl
@[simp] theorem State.write8_inputs (s : State) (a : Addr) (v : Byte) : (s.write8 a v).inputs = s.inputs := by
  unfold State.write8; split <;> rfl
@[simp] theorem State.write8_turns (s : State) (a : Addr) (v : Byte) : (s.write8 a v).turns = s.turns := by
  unfold State.write8; split <;> rfl
@[simp] theorem State.write8_timeWait (s : State) (a : Addr) (v : Byte) : (s.write8 a v).timeWait = s.timeWait := by
  unfold State.write8; split <;> rfl
@[simp] theorem State.write8_draws (s : State) (a : Addr) (v : Byte) : (s.write8 a v).draws = s.draws := by
  unfold State.write8; split <;> rfl
@[simp] theorem State.write8_cycles (s : State) (a : Addr) (v : Byte) : (s.write8 a v).cycles = s.cycles := by
  unfold State.write8; split <;> rfl
@[simp] theorem State.write8_ended (s : State) (a : Addr) (v : Byte) : (s.write8 a v).ended = s.ended := by
  unfold State.write8; split <;> rfl

/-! ### `write16` -/

@[simp] theorem State.write16_regs (s : State) (a : Addr) (v : Word) : (s.write16 a v).regs = s.regs := by
  simp only [State.write16, State.write8_regs]
@[simp] theorem State.write16_cs (s : State) (a : Addr) (v : Word) : (s.write16 a v).cs = s.cs := by
  simp only [State.write16, State.write8_cs]
@[simp] theorem State.write16_ds (s : State) (a : Addr) (v : Word) : (s.write16 a v).ds = s.ds := by
  simp only [State.write16, State.write8_ds]
@[simp] theorem State.write16_es (s : State) (a : Addr) (v : Word) : (s.write16 a v).es = s.es := by
  simp only [State.write16, State.write8_es]
@[simp] theorem State.write16_ss (s : State) (a : Addr) (v : Word) : (s.write16 a v).ss = s.ss := by
  simp only [State.write16, State.write8_ss]
@[simp] theorem State.write16_ip (s : State) (a : Addr) (v : Word) : (s.write16 a v).ip = s.ip := by
  simp only [State.write16, State.write8_ip]
@[simp] theorem State.write16_flags (s : State) (a : Addr) (v : Word) : (s.write16 a v).flags = s.flags := by
  simp only [State.write16, State.write8_flags]
@[simp] theorem State.write16_halt (s : State) (a : Addr) (v : Word) : (s.write16 a v).halt = s.halt := by
  simp only [State.write16, State.write8_halt]
@[simp] theorem State.write16_debug (s : State) (a : Addr) (v : Word) : (s.write16 a v).debug = s.debug := by
  simp only [State.write16, State.write8_debug]
@[simp] theorem State.write16_pend (s : State) (a : Addr) (v : Word) : (s.write16 a v).pend = s.pend := by
  simp only [State.write16, State.write8_pend]
@[simp] theorem State.write16_memMap (s : State) (a : Addr) (v : Word) : (s.write16 a v).memMap = s.memMap := by
  simp only [State.write16, State.write8_memMap]
@[simp] theorem State.write16_ioMap (s : State) (a : Addr) (v : Word) : (s.write16 a v).ioMap = s.ioMap := by
  simp only [State.write16, State.write8_ioMap]
@[simp] theorem State.write16_pic (s : State) (a : Addr) (v : Word) : (s.write16 a v).pic = s.pic := by
  simp only [State.write16, State.write8_pic]
@[simp] theorem State.write16_hooks (s : State) (a : Addr) (v : Word) : (s.write16 a v).hooks = s.hooks := by
  simp only [State.write16, State.write8_hooks]
@[simp] theorem State.write16_now (s : State) (a : Addr) (v : Word) : (s.write16 a v).now = s.now := by
  simp only [State.write16, State.write8_now]
@[simp] theorem State.write16_inputs (s : State) (a : Addr) (v : Word) : (s.write16 a v).inputs = s.inputs := by
  simp only [State.write16, State.write8_inputs]
@[simp] theorem State.write16_turns (s : State) (a : Addr) (v : Word) : (s.write16 a v).turns = s.turns := by
  simp only [State.write16, State.write8_turns]
@[simp] theorem State.write16_timeWait (s : State) (a : Addr) (v : Word) : (s.write16 a v).timeWait = s.timeWait := by
  simp only [State.write16, State.write8_timeWait]
@[simp] theorem State.write16_draws (s : State) (a : Addr) (v : Word) : (s.write16 a v).draws = s.draws := by
  simp only [State.write16, State.write8_draws]
@[simp] theorem State.write16_cycles (s : State) (a : Addr) (v : Word) : (s.write16 a v).cycles = s.cycles := by
  simp only [State.write16, State.write8_cycles]
@[simp] theorem State.write16_ended (s : State) (a : Addr) (v : Word) : (s.write16 a v).ended = s.ended := by
  simp only [State.write16, State.write8_ended]

/-! ### `push16` -/

@[simp] theorem State.push16_regs (s : State) (v : Word) : (s.push16 v).regs = { s.regs with sp := s.regs.sp - 2 } := by
  simp only [State.push16, State.write16_regs, State.setSp_regs]
@[simp] theorem State.push16_cs (s : State) (v : Word) : (s.push16 v).cs = s.cs := by
  simp only [State.push16, State.write16_cs, State.setSp_cs]
@[simp] theorem State.push16_ds (s : State) (v : Word) : (s.push16 v).ds = s.ds := by
  simp only [State.push16, State.write16_ds, State.setSp_ds]
@[simp] theorem State.push16_es (s : State) (v : Word) : (s.push16 v).es = s.es := by
  simp only [State.push16, State.write16_es, State.setSp_es]
@[simp] theorem State.push16_ss (s : State) (v : Word) : (s.push16 v).ss = s.ss := by
  simp only [State.push16, State.write16_ss, State.setSp_ss]
@[simp] theorem State.push16_ip (s : State) (v : Word) : (s.push16 v).ip = s.ip := by
  simp only [State.push16, State.write16_ip, State.setSp_ip]
@[simp] theorem State.push16_flags (s : State) (v : Word) : (s.push16 v).flags = s.flags := by
  simp only [State.push16, State.write16_flags, State.setSp_flags]
@[simp] theorem State.push16_halt (s : State) (v : Word) : (s.push16 v).halt = s.halt := by
  simp only [State.push16, State.write16_halt, State.setSp_halt]
@[simp] theorem State.push16_debug (s : State) (v : Word) : (s.push16 v).debug = s.debug := by
  simp only [State.push16, State.write16_debug, State.setSp_debug]
@[simp] theorem State.push16_pend (s : State) (v : Word) : (s.push16 v).pend = s.pend := by
  simp only [State.push16, State.write16_pend, State.setSp_pend]
@[simp] theorem State.push16_memMap (s : State) (v : Word) : (s.push16 v).memMap = s.memMap := by
  simp only [State.push16, State.write16_memMap, State.setSp_memMap]
@[simp] theorem State.push16_ioMap (s : State) (v : Word) : (s.push16 v).ioMap = s.ioMap := by
  simp only [State.push16, State.write16_ioMap, State.setSp_ioMap]
@[simp] theorem State.push16_pic (s : State) (v : Word) : (s.push16 v).pic = s.pic := by
  simp only [State.push16, State.write16_pic, State.setSp_pic]
@[simp] theorem State.push16_hooks (s : State) (v : Word) : (s.push16 v).hooks = s.hooks := by
  simp only [State.push16, State.write16_hooks, State.setSp_hooks]
@[simp] theorem State.push16_now (s : State) (v : Word) : (s.push16 v).now = s.now := by
  simp only [State.push16, State.write16_now, State.setSp_now]
@[simp] theorem State.push16_inputs (s : State) (v : Word) : (s.push16 v).inputs = s.inputs := by
  simp only [State.push16, State.write16_inputs, State.setSp_inputs]
@[simp] theorem State.push16_turns (s : State) (v : Word) : (s.push16 v).turns = s.turns := by
  simp only [State.push16, State.write16_turns, State.setSp_turns]
@[simp] theorem State.push16_timeWait (s : State) (v : Word) : (s.push16 v).timeWait = s.timeWait := by
  simp only [State.push16, State.write16_timeWait, State.setSp_timeWait]
@[simp] theorem State.push16_draws (s : State) (v : Word) : (s.push16 v).draws = s.draws := by
  simp only [State.push16, State.write16_draws, State.setSp_draws]
@[simp] theorem State.push16_cycles (s : State) (v : Word) : (s.push16 v).cycles = s.cycles := by
  simp only [State.push16, State.write16_cycles, State.setSp_cycles]
@[simp] theorem State.push16_ended (s : State) (v : Word) : (s.push16 v).ended = s.ended := by
  simp only [State.push16, State.write16_ended, State.setSp_ended]

/-! ### `drop16` -/

@[simp] theorem State.drop16_regs (s : State) : s.drop16.regs = { s.regs with sp := s.regs.sp + 2 } := rfl
@[simp] theorem State.drop16_cs (s : State) : s.drop16.cs = s.cs := rfl
@[simp] theorem State.drop16_ds (s : State) : s.drop16.ds = s.ds := rfl
@[simp] theorem State.drop16_es (s : State) : s.drop16.es = s.es := rfl
@[simp] theorem State.drop16_ss (s : State) : s.drop16.ss = s.ss := rfl
@[simp] theorem State.drop16_ip (s : State) : s.drop16.ip = s.ip := rfl
@[simp] theorem State.drop16_flags (s : State) : s.drop16.flags = s.flags := rfl
@[simp] theorem State.drop16_halt (s : State) : s.drop16.halt = s.halt := rfl
@[simp] theorem State.drop16_debug (s : State) : s.drop16.debug = s.debug := rfl
@[simp] theorem State.drop16_pend (s : State) : s.drop16.pend = s.pend := rfl
@[simp] theorem State.drop16_mem (s : State) : s.drop16.mem = s.mem := rfl
@[simp] theorem State.drop16_memMap (s : State) : s.drop16.memMap = s.memMap := rfl
@[simp] theorem State.drop16_ioMap (s : State) : s.drop16.ioMap = s.ioMap := rfl
@[simp] theorem State.drop16_pic (s : State) : s.drop16.pic = s.pic := rfl
@[simp] theorem State.drop16_cga (s : State) : s.drop16.cga = s.cga := rfl
@[simp] theorem State.drop16_hooks (s : State) : s.drop16.hooks = s.hooks := rfl
@[simp] theorem State.drop16_now (s : State) : s.drop16.now = s.now := rfl
@[simp] theorem State.drop16_devices (s : State) : s.drop16.devices = wordReadEvents s.memMap s.stackAddr ++ s.devices := rfl
@[simp] theorem State.drop16_inputs (s : State) : s.drop16.inputs = s.inputs := rfl
@[simp] theorem State.drop16_turns (s : State) : s.drop16.turns = s.turns := rfl
@[simp] theorem State.drop16_timeWait (s : State) : s.drop16.timeWait = s.timeWait := rfl
@[simp] theorem State.drop16_draws (s : State) : s.drop16.draws = s.draws := rfl
@[simp] theorem State.drop16_cycles (s : State) : s.drop16.cycles = s.cycles := rfl
@[simp] theorem State.drop16_ended (s : State) : s.drop16.ended = s.ended := rfl

/-! ### `portOut8`: only the devices may change -/

@[simp] theorem State.portOut8_regs (s : State) (p : Word) (v : Byte) : (s.portOut8 p v).regs = s.regs := by
  unfold State.portOut8; split <;> rfl
@[simp] theorem State.portOut8_cs (s : State) (p : Word) (v : Byte) : (s.portOut8 p v).cs = s.cs := by
  unfold State.portOut8; split <;> rfl
@[simp] theorem State.portOut8_ds (s : State) (p : Word) (v : Byte) : (s.portOut8 p v).ds = s.ds := by
  unfold State.portOut8; split <;> rfl
@[simp] theorem State.portOut8_es (s : State) (p : Word) (v : Byte) : (s.portOut8 p v).es = s.es := by
  unfold State.portOut8; split <;> rfl
@[simp] theorem State.portOut8_ss (s : State) (p : Word) (v : Byte) : (s.portOut8 p v).ss = s.ss := by
  unfold State.portOut8; split <;> rfl
@[simp] theorem State.portOut8_ip (s : State) (p : Word) (v : Byte) : (s.portOut8 p v).ip = s.ip := by
  unfold State.portOut8; split <;> rfl
@[simp] theorem State.portOut8_flags (s : State) (p : Word) (v : Byte) : (s.portOut8 p v).flags = s.flags := by
  unfold State.portOut8; split <;> rfl
@[simp] theorem State.portOut8_halt (s : State) (p : Word) (v : Byte) : (s.portOut8 p v).halt = s.halt := by
  unfold State.portOut8; split <;> rfl
@[simp] theorem State.portOut8_debug (s : State) (p : Word) (v : Byte) : (s.portOut8 p v).debug = s.debug := by
  unfold State.portOut8; split <;> rfl
@[simp] theorem State.portOut8_pend (s : State) (p : Word) (v : Byte) : (s.portOut8 p v).pend = s.pend := by
  unfold State.portOut8; split <;> rfl
@[simp] theorem State.portOut8_mem (s : State) (p : Word) (v : Byte) : (s.portOut8 p v).mem = s.mem := by
  unfold State.portOut8; split <;> rfl
@[simp] theorem State.portOut8_memMap (s : State) (p : Word) (v : Byte) : (s.portOut8 p v).memMap = s.memMap := by
  unfold State.portOut8; split <;> rfl
@[simp] theorem State.portOut8_ioMap (s : State) (p : Word) (v : Byte) : (s.portOut8 p v).ioMap = s.ioMap := by
  unfold State.portOut8; split <;> rfl
@[simp] theorem State.portOut8_hooks (s : State) (p : Word) (v : Byte) : (s.portOut8 p v).hooks = s.hooks := by
  unfold State.portOut8; split <;> rfl
@[simp] theorem State.portOut8_now (s : State) (p : Word) (v : Byte) : (s.portOut8 p v).now = s.now := by
  unfold State.portOut8; split <;> rfl
@[simp] theorem State.portOut8_inputs (s : State) (p : Word) (v : Byte) : (s.portOut8 p v).inputs = s.inputs := by
  unfold State.portOut8; split <;> rfl
@[simp] theorem State.portOut8_turns (s : State) (p : Word) (v : Byte) : (s.portOut8 p v).turns = s.turns := by
  unfold State.portOut8; split <;> rfl
@[simp] theorem State.portOut8_timeWait (s : State) (p : Word) (v : Byte) : (s.portOut8 p v).timeWait = s.timeWait := by
  unfold State.portOut8; split <;> rfl
@[simp] theorem State.portOut8_draws (s : State) (p : Word) (v : Byte) : (s.portOut8 p v).draws = s.draws := by
  unfold State.portOut8; split <;> rfl
@[simp] theorem State.portOut8_cycles (s : State) (p : Word) (v : Byte) : (s.portOut8 p v).cycles = s.cycles := by
  unfold State.portOut8; split <;> rfl
@[simp] theorem State.portOut8_ended (s : State) (p : Word) (v : Byte) : (s.portOut8 p v).ended = s.ended := by
  unfold State.portOut8; split <;> rfl

/-! ### The state after `portIn8`: only the CGA and the platform's devices may change -/

@[simp] theorem State.portIn8_regs (s : State) (p : Word) : (s.portIn8 p).2.regs = s.regs := by
  unfold State.portIn8; split <;> rfl
@[simp] theorem State.portIn8_cs (s : State) (p : Word) : (s.portIn8 p).2.cs = s.cs := by
  unfold State.portIn8; split <;> rfl
@[simp] theorem State.portIn8_ds (s : State) (p : Word) : (s.portIn8 p).2.ds = s.ds := by
  unfold State.portIn8; split <;> rfl
@[simp] theorem State.portIn8_es (s : State) (p : Word) : (s.portIn8 p).2.es = s.es := by
  unfold State.portIn8; split <;> rfl
@[simp] theorem State.portIn8_ss (s : State) (p : Word) : (s.portIn8 p).2.ss = s.ss := by
  unfold State.portIn8; split <;> rfl
@[simp] theorem State.portIn8_ip (s : State) (p : Word) : (s.portIn8 p).2.ip = s.ip := by
  unfold State.portIn8; split <;> rfl
@[simp] theorem State.portIn8_flags (s : State) (p : Word) : (s.portIn8 p).2.flags = s.flags := by
  unfold State.portIn8; split <;> rfl
@[simp] theorem State.portIn8_halt (s : State) (p : Word) : (s.portIn8 p).2.halt = s.halt := by
  unfold State.portIn8; split <;> rfl
@[simp] theorem State.portIn8_debug (s : State) (p : Word) : (s.portIn8 p).2.debug = s.debug := by
  unfold State.portIn8; split <;> rfl
@[simp] theorem State.portIn8_pend (s : State) (p : Word) : (s.portIn8 p).2.pend = s.pend := by
  unfold State.portIn8; split <;> rfl
@[simp] theorem State.portIn8_mem (s : State) (p : Word) : (s.portIn8 p).2.mem = s.mem := by
  unfold State.portIn8; split <;> rfl
@[simp] theorem State.portIn8_memMap (s : State) (p : Word) : (s.portIn8 p).2.memMap = s.memMap := by
  unfold State.portIn8; split <;> rfl
@[simp] theorem State.portIn8_ioMap (s : State) (p : Word) : (s.portIn8 p).2.ioMap = s.ioMap := by
  unfold State.portIn8; split <;> rfl
@[simp] theorem State.portIn8_pic (s : State) (p : Word) : (s.portIn8 p).2.pic = s.pic := by
  unfold State.portIn8; split <;> rfl
@[simp] theorem State.portIn8_hooks (s : State) (p : Word) : (s.portIn8 p).2.hooks = s.hooks := by
  unfold State.portIn8; split <;> rfl
@[simp] theorem State.portIn8_now (s : State) (p : Word) : (s.portIn8 p).2.now = s.now := by
  unfold State.portIn8; split <;> rfl
@[simp] theorem State.portIn8_inputs (s : State) (p : Word) : (s.portIn8 p).2.inputs = s.inputs := by
  unfold State.portIn8; split <;> rfl
@[simp] theorem State.portIn8_turns (s : State) (p : Word) : (s.portIn8 p).2.turns = s.turns := by
  unfold State.portIn8; split <;> rfl
@[simp] theorem State.portIn8_timeWait (s : State) (p : Word) : (s.portIn8 p).2.timeWait = s.timeWait := by
  unfold State.portIn8; split <;> rfl
@[simp] theorem State.portIn8_draws (s : State) (p : Word) : (s.portIn8 p).2.draws = s.draws := by
  unfold State.portIn8; split <;> rfl
@[simp] theorem State.portIn8_cycles (s : State) (p : Word) : (s.portIn8 p).2.cycles = s.cycles := by
  unfold State.portIn8; split <;> rfl
@[simp] theorem State.portIn8_ended (s : State) (p : Word) : (s.portIn8 p).2.ended = s.ended := by
  unfold State.portIn8; split <;> rfl

/-! ### Registers -/

theorem Regs.get_put (x : Regs) (r q : Reg16) (v : Word) : (x.put r v).get q = if q = r then v else x.get q := by
  cases r <;> cases q <;> rfl

@[simp] theorem Regs.get_put_same (x : Regs) (r : Reg16) (v : Word) : (x.put r v).get r = v := by
  simp [Regs.get_put]

theorem State.get16_set16 (s : State) (r q : Reg16) (v : Word) :
    (s.set16 r v).get16 q = if q = r then v else s.get16 q := Regs.get_put s.regs r q v

@[simp] theorem State.get16_set16_same (s : State) (r : Reg16) (v : Word) : (s.set16 r v).get16 r = v := by
  simp [State.get16_set16]

theorem State.getS_setS (s : State) (r q : SReg) (v : Word) :
    (s.setS r v).getS q = if q = r then v else s.getS q := by
  cases r <;> cases q <;> rfl

/-- Two states with the same registers agree on each of them. -/
theorem State.get16_congr {s t : State} (h : t.regs = s.regs) (r : Reg16) : t.get16 r = s.get16 r := by
  simp only [State.get16, h]

/-- Two states with the same registers agree on their halves. -/
theorem State.get8_congr {s t : State} (h : t.regs = s.regs) (r : Reg8) : t.get8 r = s.get8 r := by
  simp only [State.get8, State.get16_congr h]

/-! ### Bytes of a word -/

theorem getLsbD_mkWord (a b : Byte) (k : Nat) : (mkWord a b).getLsbD k = if k < 8 then a.getLsbD k else b.getLsbD (k - 8) :=
  BitVec.getLsbD_append

@[simp] theorem loByte_mkWord (a b : Byte) : loByte (mkWord a b) = a := by
  refine BitVec.eq_of_getLsbD_eq fun k hk => ?_
  simp [loByte, getLsbD_mkWord, hk]

@[simp] theorem hiByte_mkWord (a b : Byte) : hiByte (mkWord a b) = b := by
  refine BitVec.eq_of_getLsbD_eq fun k hk => ?_
  simp [hiByte, getLsbD_mkWord, hk]

@[simp] theorem mkWord_loByte_hiByte (v : Word) : mkWord (loByte v) (hiByte v) = v := by
  refine BitVec.eq_of_getLsbD_eq fun k hk => ?_
  rw [getLsbD_mkWord]
  split
  · simp [loByte, *]
  · rename_i h
    have : k - 8 < 8 := by omega
    simp [hiByte, this, show 8 + (k - 8) = k by omega]

/-- A write to a half register leaves the other half of its container and every other register (R32). -/
theorem State.get8_set8 (s : State) (r q : Reg8) (v : Byte) :
    (s.set8 r v).get8 q = if q = r then v else s.get8 q := by
  cases r <;> cases q <;> simp [State.get8, State.set8, State.get16_set16, container, isHigh]

end Sys2Proof.Machine
end

