-- ==== Sys2Proof/Laws/Bus.lean ====
section
/-! SUPPORT. The memory bus: lists of cells, reading after writing, the cells a write can reach, and the canonical form
that every write keeps. -/

namespace Sys2Proof.Machine

/-! ### Lists of cells -/

@[simp] theorem Memory.get?_set_same (m : Memory) (a : Nat) (v : Byte) : (m.set a v).get? a = some v := by
  induction m with
  | nil => simp [Memory.set, Memory.get?]
  | cons c m ih =>
    obtain ⟨b, w⟩ := c
    simp only [Memory.set]
    split
    · simp [Memory.get?]
    · split
      · simp [Memory.get?]
      · simp [Memory.get?, *]

@[simp] theorem Memory.get?_set_other (m : Memory) (a b : Nat) (v : Byte) (h : b ≠ a) :
    (m.set a v).get? b = m.get? b := by
  induction m with
  | nil => simp [Memory.set, Memory.get?, h]
  | cons c m ih =>
    obtain ⟨d, w⟩ := c
    simp only [Memory.set]
    split
    · simp [Memory.get?, h]
    · split
      · subst_vars; simp [Memory.get?, h]
      · simp only [Memory.get?, ih]

theorem Memory.wfFrom_mono {m : Memory} {n lo lo' : Nat} (h : lo' ≤ lo) (hm : Memory.wfFrom n lo m = true) :
    Memory.wfFrom n lo' m = true := by
  cases m with
  | nil => rfl
  | cons c m =>
    obtain ⟨b, w⟩ := c
    simp only [Memory.wfFrom, Bool.and_eq_true, decide_eq_true_eq] at hm ⊢
    exact ⟨⟨by omega, hm.1.2⟩, hm.2⟩

/-- A write keeps the canonical form. -/
theorem Memory.wfFrom_set {m : Memory} {n lo a : Nat} (v : Byte) (hm : Memory.wfFrom n lo m = true) (hlo : lo ≤ a)
    (ha : a < n) : Memory.wfFrom n lo (m.set a v) = true := by
  induction m generalizing lo with
  | nil => simp [Memory.set, Memory.wfFrom, hlo, ha]
  | cons c m ih =>
    obtain ⟨b, w⟩ := c
    simp only [Memory.wfFrom, Bool.and_eq_true, decide_eq_true_eq] at hm
    simp only [Memory.set]
    split
    · simp only [Memory.wfFrom, Bool.and_eq_true, decide_eq_true_eq]
      exact ⟨⟨hlo, ha⟩, ⟨by omega, hm.1.2⟩, hm.2⟩
    · split
      · subst_vars
        simp only [Memory.wfFrom, Bool.and_eq_true, decide_eq_true_eq]
        exact ⟨⟨hlo, ha⟩, hm.2⟩
      · simp only [Memory.wfFrom, Bool.and_eq_true, decide_eq_true_eq]
        exact ⟨hm.1, ih hm.2 (by omega)⟩

theorem Memory.wf_set {m : Memory} (a : Addr) (v : Byte) (hm : m.wf = true) : (m.set a.toNat v).wf = true :=
  Memory.wfFrom_set v hm (Nat.zero_le _) a.isLt

theorem vramIndex_lt (a : Addr) : vramIndex a < 2 ^ 14 := (a.extractLsb' 0 14).isLt

theorem Memory.vramWf_set {m : Memory} (a : Addr) (v : Byte) (hm : m.vramWf = true) :
    (m.set (vramIndex a) v).vramWf = true :=
  Memory.wfFrom_set v hm (Nat.zero_le _) (vramIndex_lt a)

/-! ### The platform's devices: what has happened to them only grows -/

theorem HistoryGrows.refl (s : State) : HistoryGrows s s := ⟨[], rfl⟩

theorem HistoryGrows.trans {s t u : State} (h : HistoryGrows s t) (h' : HistoryGrows t u) : HistoryGrows s u := by
  obtain ⟨es, he⟩ := h
  obtain ⟨fs, hf⟩ := h'
  exact ⟨fs ++ es, by rw [hf, he, List.append_assoc]⟩

theorem historyGrows_note (s : State) (es : List DeviceEvent) : HistoryGrows s (s.note es) := ⟨es, rfl⟩

/-- Nothing happened in between, when nothing has at the end. -/
theorem HistoryGrows.eq_of_eq {s t u : State} (h : HistoryGrows s t) (h' : HistoryGrows t u)
    (e : u.devices = s.devices) : t.devices = s.devices := by
  obtain ⟨es, he⟩ := h
  obtain ⟨fs, hf⟩ := h'
  have hl := congrArg List.length (hf.symm.trans e)
  rw [he] at hl
  simp only [List.length_append] at hl
  rw [he, List.eq_nil_of_length_eq_zero (by omega : es.length = 0), List.nil_append]

theorem Happened.later {s t u : State} {e : DeviceEvent} (h : Happened s t e) (h' : HistoryGrows t u) : Happened s u e := by
  obtain ⟨es, he, hm⟩ := h
  obtain ⟨fs, hf⟩ := h'
  exact ⟨fs ++ es, by rw [hf, he, List.append_assoc], List.mem_append.2 (Or.inr hm)⟩

theorem Happened.earlier {s t u : State} {e : DeviceEvent} (h : HistoryGrows s t) (h' : Happened t u e) : Happened s u e := by
  obtain ⟨es, he⟩ := h
  obtain ⟨fs, hf, hm⟩ := h'
  exact ⟨fs ++ es, by rw [hf, he, List.append_assoc], List.mem_append.2 (Or.inl hm)⟩

/-- A read of an address that no device of the platform owns does nothing to them (R88). -/
theorem readEvents_of_not {s : State} {a : Addr} (h : ¬PlatformOwns s a) : readEvents s.memMap a = [] := by
  unfold readEvents
  split
  · rename_i d hd; exact absurd ⟨d, hd⟩ h
  all_goals rfl

/-- Where no device of the platform is on the memory bus, a read leaves the state as it was (R88). -/
theorem State.afterRead8_of_not {s : State} {a : Addr} (h : ¬PlatformOwns s a) : s.afterRead8 a = s := by
  rw [State.afterRead8_eq, readEvents_of_not h, State.note_nil]

theorem State.afterRead16_of_not {s : State} {a : Addr} (h : ¬PlatformOwns s a) (h' : ¬PlatformOwns s (a + 1)) :
    s.afterRead16 a = s := by
  rw [State.afterRead16_eq, wordReadEvents, readEvents_of_not h, readEvents_of_not h', List.nil_append, State.note_nil]

theorem PlatformOwns.congr {s t : State} (h : t.memMap = s.memMap) (a : Addr) : PlatformOwns t a ↔ PlatformOwns s a := by
  simp only [PlatformOwns, h]

/-- A byte written adds to what has happened to the platform's devices, or leaves it. -/
theorem historyGrows_write8 (s : State) (a : Addr) (v : Byte) : HistoryGrows s (s.write8 a v) := by
  unfold State.write8
  split
  · exact ⟨[], rfl⟩
  · exact ⟨[], rfl⟩
  · exact historyGrows_note s _
  all_goals exact HistoryGrows.refl s

theorem State.write8_devices_of_not {s : State} {a : Addr} (v : Byte) (h : ¬PlatformOwns s a) :
    (s.write8 a v).devices = s.devices := by
  unfold State.write8
  split
  case h_3 d hd => exact absurd ⟨d, hd⟩ h
  all_goals rfl

/-! ### The render task writes nothing that the processor reads (R495) -/

@[simp] theorem Cga.moment_vram (c : Cga) : c.moment.vram = c.vram := rfl
@[simp] theorem Cga.moment_status (c : Cga) : c.moment.status = c.status := rfl
@[simp] theorem Cga.moment_crtIndex (c : Cga) : c.moment.crtIndex = c.crtIndex := rfl
@[simp] theorem Cga.moment_crtReg (c : Cga) : c.moment.crtReg = c.crtReg := rfl

/-! ### One byte (R85, R87 to R89, R461, R462) -/

/-- A byte written is stored as its device stores it. -/
theorem State.byteStored_write8 (s : State) (a : Addr) (v : Byte) : ByteStored s (s.write8 a v) a v := by
  unfold ByteStored State.write8
  cases h : memOwner s.memMap a with
  | none => simp
  | some d =>
    cases d with
    | ram => simp [State.read8, h, ramByte]
    | rom => simp
    | cga => simp [State.read8, h, Cga.readByte, Cga.writeByte, vramByte]
    | other d => exact ⟨[.write d a v], rfl, List.mem_singleton.2 rfl⟩

/-- Where a device keeps it, a byte written reads back. -/
theorem ByteStored.read8 {s t : State} {a : Addr} {v : Byte} (h : ByteStored s t a v) (hk : Keeps s a = true) :
    t.read8 a = v := by
  unfold ByteStored at h
  simp only [Keeps, Bool.or_eq_true, beq_iff_eq] at hk
  rcases hk with hk | hk <;> simpa [hk] using h

/-- Two states with the same memory, video memory and bus table read alike, and the platform's devices do when nothing
has happened to them. -/
theorem State.read8_congr {s t : State} {a : Addr} (hm : t.mem = s.mem) (hv : t.cga.vram = s.cga.vram)
    (hp : t.memMap = s.memMap) (hd : PlatformOwns s a → t.devices = s.devices) : t.read8 a = s.read8 a := by
  simp only [State.read8, hp, hm, Cga.readByte, hv]
  cases h : memOwner s.memMap a with
  | none => rfl
  | some d =>
    cases d with
    | other d => simp only; rw [hd ⟨d, h⟩]
    | ram => rfl
    | rom => rfl
    | cga => rfl

/-- A byte written changes no byte but the ones that name its cell. -/
theorem State.read8_write8_other (s : State) (a b : Addr) (v : Byte) (h : ¬SameCell s b a)
    (hd : PlatformOwns s b → (s.write8 a v).devices = s.devices) : (s.write8 a v).read8 b = s.read8 b := by
  have hne : b.toNat ≠ a.toNat := fun e => h (Or.inl (BitVec.eq_of_toNat_eq e))
  cases ha : memOwner s.memMap a with
  | none => simp only [State.write8, ha]
  | some d =>
    cases d with
    | rom => simp only [State.write8, ha]
    | ram =>
      simp only [State.write8, ha]
      cases hb : memOwner s.memMap b with
      | none => simp [State.read8, hb]
      | some e => cases e <;> simp [State.read8, hb, ramByte, Memory.get?_set_other, hne]
    | cga =>
      simp only [State.write8, ha]
      cases hb : memOwner s.memMap b with
      | none => simp [State.read8, hb]
      | some e =>
        cases e with
        | ram => simp [State.read8, hb]
        | rom => simp [State.read8, hb]
        | other d => simp [State.read8, hb]
        | cga =>
          have hi : vramIndex b ≠ vramIndex a := fun e => h (Or.inr ⟨hb, ha, e⟩)
          simp [State.read8, hb, Cga.readByte, Cga.writeByte, vramByte, Memory.get?_set_other, hi]
    | other d =>
      simp only [State.write8, ha] at hd ⊢
      exact State.read8_congr rfl rfl rfl hd

/-- Which device owns an address does not depend on what memory holds. -/
theorem SameCell.congr {s t : State} (h : t.memMap = s.memMap) (a b : Addr) : SameCell t a b ↔ SameCell s a b := by
  simp only [SameCell, h]

theorem Keeps.congr {s t : State} (h : t.memMap = s.memMap) (a : Addr) : Keeps t a = Keeps s a := by
  simp only [Keeps, h]

theorem State.read16_congr {s t : State} {a : Addr} (hm : t.mem = s.mem) (hv : t.cga.vram = s.cga.vram)
    (hp : t.memMap = s.memMap) (hd : t.devices = s.devices) : t.read16 a = s.read16 a := by
  simp only [State.read16]
  rw [State.read8_congr hm hv hp fun _ => hd,
    State.read8_congr (s := s.afterRead8 a) (t := t.afterRead8 a) hm hv hp fun _ => by
      simp only [State.afterRead8, State.note_devices, hp, hd]]

/-! ### What `ByteStored` needs of the states around it -/

/-- The state before may be taken earlier, when memory and bus table are the same. -/
theorem ByteStored.earlier {s u t : State} {a : Addr} {v : Byte} (h : ByteStored u t a v) (hm : u.mem = s.mem)
    (hv : u.cga.vram = s.cga.vram) (hp : u.memMap = s.memMap) (hg : HistoryGrows s u) : ByteStored s t a v := by
  unfold ByteStored at h ⊢
  rw [hp] at h
  cases ho : memOwner s.memMap a with
  | none => simp only [ho] at h ⊢; rw [h]; simp [State.read8, hp, ho]
  | some d =>
    cases d with
    | ram => simpa only [ho] using h
    | cga => simpa only [ho] using h
    | rom =>
      simp only [ho] at h ⊢
      rw [h, State.read8_congr hm hv hp fun ⟨d, hd⟩ => by rw [ho] at hd; cases hd]
    | other d => simp only [ho] at h ⊢; exact Happened.earlier hg h

theorem WordStored.earlier {s u t : State} {a : Addr} {v : Word} (h : WordStored u t a v) (hm : u.mem = s.mem)
    (hv : u.cga.vram = s.cga.vram) (hp : u.memMap = s.memMap) (hg : HistoryGrows s u) : WordStored s t a v :=
  ⟨h.1.earlier hm hv hp hg, h.2.earlier hm hv hp hg⟩

/-- The state after may be taken later, when the byte is not stored to again. -/
theorem ByteStored.later {s t u : State} {a : Addr} {v : Byte} (h : ByteStored s t a v) (hg : HistoryGrows t u)
    (hr : ¬PlatformOwns s a → u.read8 a = t.read8 a) : ByteStored s u a v := by
  unfold ByteStored at h ⊢
  have key : ∀ o, memOwner s.memMap a = o → (∀ d, o ≠ some (.other d)) → u.read8 a = t.read8 a := fun o ho hn =>
    hr fun ⟨d, hd⟩ => hn d (ho.symm.trans hd)
  cases ho : memOwner s.memMap a with
  | none => simp only [ho] at h ⊢; rw [key _ ho (by simp), h]
  | some d =>
    cases d with
    | ram => simp only [ho] at h ⊢; rw [key _ ho (by simp), h]
    | cga => simp only [ho] at h ⊢; rw [key _ ho (by simp), h]
    | rom => simp only [ho] at h ⊢; rw [key _ ho (by simp), h]
    | other d => simp only [ho] at h ⊢; exact h.later hg

/-- A byte and the next one are different cells. -/
theorem not_sameCell_succ (s : State) (a : Addr) : ¬SameCell s a (a + 1) := by
  rintro (h | ⟨-, -, h⟩)
  · bv_omega
  · simp only [vramIndex, BitVec.extractLsb'_toNat, Nat.shiftRight_zero, BitVec.toNat_add] at h
    have := a.isLt
    have h1 : (1 : Addr).toNat = 1 := rfl
    rw [h1] at h
    omega

theorem SameCell.symm {s : State} {a b : Addr} (h : SameCell s a b) : SameCell s b a := by
  rcases h with h | ⟨h1, h2, h3⟩
  · exact Or.inl h.symm
  · exact Or.inr ⟨h2, h1, h3.symm⟩

/-- Two addresses of one byte agree in their low 14 bits, whoever owns them. -/
theorem SameCell.vramIndex_eq {s : State} {a b : Addr} (h : SameCell s a b) : vramIndex a = vramIndex b := by
  rcases h with rfl | ⟨_, _, h⟩
  · rfl
  · exact h

/-- The low 14 bits of a linear address (R81, R461). -/
theorem vramIndex_lin (seg off : Word) : vramIndex (lin seg off) = (seg.toNat * 16 + off.toNat) % 16384 := by
  simp [vramIndex, lin, BitVec.extractLsb'_toNat, BitVec.toNat_add, BitVec.toNat_shiftLeft, Nat.shiftLeft_eq]

/-- The low 14 bits of the next linear address. -/
theorem vramIndex_succ (a : Addr) : vramIndex (a + 1) = (vramIndex a + 1) % 16384 := by
  simp [vramIndex, BitVec.extractLsb'_toNat, BitVec.toNat_add]

theorem SameCell.refl (s : State) (a : Addr) : SameCell s a a := Or.inl rfl

/-! ### One word (R16, R90, R91) -/

theorem historyGrows_write16 (s : State) (a : Addr) (v : Word) : HistoryGrows s (s.write16 a v) :=
  (historyGrows_write8 s a _).trans (historyGrows_write8 _ _ _)

/-- A word written: each of its bytes is stored as its device stores it. -/
theorem State.wordStored_write16 (s : State) (a : Addr) (v : Word) : WordStored s (s.write16 a v) a v := by
  have h1 := s.byteStored_write8 a (loByte v)
  have h2 := (s.write8 a (loByte v)).byteStored_write8 (a + 1) (hiByte v)
  have hm := s.write8_memMap a (loByte v)
  have hc : ¬SameCell (s.write8 a (loByte v)) a (a + 1) := by rw [SameCell.congr hm]; exact not_sameCell_succ s a
  refine ⟨h1.later (historyGrows_write8 _ _ _) fun hn => ?_, ?_⟩
  · exact State.read8_write8_other _ _ _ _ hc fun h => absurd ((PlatformOwns.congr hm a).1 h) hn
  · unfold ByteStored at h2 ⊢
    rw [hm] at h2
    have key : ¬PlatformOwns s (a + 1) → (s.write8 a (loByte v)).read8 (a + 1) = s.read8 (a + 1) := fun hn =>
      State.read8_write8_other _ _ _ _ (fun h => not_sameCell_succ s a h.symm) fun h => absurd h hn
    cases ho : memOwner s.memMap (a + 1) with
    | none => simp only [ho] at h2 ⊢; exact h2.trans (key fun ⟨d, hd⟩ => by rw [ho] at hd; cases hd)
    | some d =>
      cases d with
      | ram => simp only [ho] at h2 ⊢; exact h2
      | cga => simp only [ho] at h2 ⊢; exact h2
      | rom => simp only [ho] at h2 ⊢; exact h2.trans (key fun ⟨d, hd⟩ => by rw [ho] at hd; cases hd)
      | other d => simp only [ho] at h2 ⊢; exact Happened.earlier (historyGrows_write8 s a _) h2

/-- A word written changes no byte but its own two cells. -/
theorem State.read8_write16_other (s : State) (a b : Addr) (v : Word) (h : ¬SameCell s b a)
    (h' : ¬SameCell s b (a + 1)) (hd : PlatformOwns s b → (s.write16 a v).devices = s.devices) :
    (s.write16 a v).read8 b = s.read8 b := by
  have hm := s.write8_memMap a (loByte v)
  have hmid : PlatformOwns s b → (s.write8 a (loByte v)).devices = s.devices := fun h =>
    (historyGrows_write8 s a (loByte v)).eq_of_eq (historyGrows_write8 _ (a + 1) (hiByte v)) (hd h)
  unfold State.write16 at hd ⊢
  rw [State.read8_write8_other, State.read8_write8_other _ _ _ _ h hmid]
  · rwa [SameCell.congr hm]
  · intro hp
    have hp' := (PlatformOwns.congr hm b).1 hp
    rw [hd hp', hmid hp']

/-- A word reads back where a device keeps both its bytes. -/
theorem State.read16_write16 (s : State) (a : Addr) (v : Word) (h : Keeps s a = true) (h' : Keeps s (a + 1) = true) :
    (s.write16 a v).read16 a = v := by
  obtain ⟨h1, h2⟩ := s.wordStored_write16 a v
  have hn : ¬PlatformOwns (s.write16 a v) a := fun ⟨d, hd⟩ => by
    rw [State.write16_memMap] at hd
    simp [Keeps, hd] at h
  rw [State.read16, State.afterRead8_of_not hn, h1.read8 h, h2.read8 h', mkWord_loByte_hiByte]

/-! ### What a write leaves in the CGA -/

/-- A write changes nothing in the CGA but its memory, what the render task writes, and that task's clock. -/
theorem State.write8_cga (s : State) (a : Addr) (v : Byte) :
    (s.write8 a v).cga =
      { s.cga.withRender (s.write8 a v).cga with
        vram := (s.write8 a v).cga.vram
        tickWait := (s.write8 a v).cga.tickWait
        ticks := (s.write8 a v).cga.ticks } := by
  unfold State.write8; split <;> rfl

theorem State.write8_cga_of_ne (s : State) (a : Addr) (v : Byte) (h : memOwner s.memMap a ≠ some .cga) :
    (s.write8 a v).cga = s.cga := by
  unfold State.write8; split <;> first | rfl | contradiction

/-! ### Frames -/

theorem memoryOutside_refl (s : State) (l : List Addr) : MemoryOutside s s l := fun _ _ _ => rfl

theorem memoryOutside_of_eq {s t : State} (hm : t.mem = s.mem) (hv : t.cga.vram = s.cga.vram)
    (hp : t.memMap = s.memMap) (l : List Addr) : MemoryOutside s t l := fun _ _ hd => State.read8_congr hm hv hp hd

theorem memoryOutside_note (s : State) (es : List DeviceEvent) (l : List Addr) : MemoryOutside s (s.note es) l :=
  memoryOutside_of_eq (s := s) (t := s.note es) rfl rfl rfl l

theorem memoryOutside_write8 (s : State) (a : Addr) (v : Byte) : MemoryOutside s (s.write8 a v) [a] :=
  fun b h hd => s.read8_write8_other a b v (h a (by simp)) hd

theorem memoryOutside_write16 (s : State) (a : Addr) (v : Word) : MemoryOutside s (s.write16 a v) [a, a + 1] :=
  fun b h hd => s.read8_write16_other a b v (h a (by simp)) (h (a + 1) (by simp)) hd

/-- The state before may be taken earlier, when memory and bus table are the same and the history grows throughout. -/
theorem MemoryOutside.earlier {s u t : State} {l : List Addr} (h : MemoryOutside u t l) (hm : u.mem = s.mem)
    (hv : u.cga.vram = s.cga.vram) (hp : u.memMap = s.memMap) (hg : HistoryGrows s u) (hg' : HistoryGrows u t) :
    MemoryOutside s t l := by
  intro a ha hd
  have hu : PlatformOwns s a → u.devices = s.devices := fun hp' => hg.eq_of_eq hg' (hd hp')
  rw [h a (fun b hb => by rw [SameCell.congr hp]; exact ha b hb) fun hp' => by
    have := (PlatformOwns.congr hp a).1 hp'
    rw [hd this, hu this]]
  exact State.read8_congr hm hv hp hu

end Sys2Proof.Machine
end

