-- ==== Sys2Proof/Laws/Devices.lean ====
section
/-! SUPPORT. What every operation on the memory and the devices keeps: one lemma per shared operation. -/

namespace Sys2Proof.Machine

/-! ### The PIC: the vector base stays a multiple of 8 (R47) -/

theorem Pic.base_writeCommand (p : Pic) (v : Byte) : (p.writeCommand v).base = p.base := by
  unfold Pic.writeCommand
  split
  · rfl
  · split
    · split <;> rfl
    · split
      · split
        · rfl
        · split <;> rfl
      · rfl

theorem and_f8_and_7 (v : Byte) : v &&& 0xF8 &&& 7 = 0 := by
  rw [BitVec.and_assoc]; simp

theorem Pic.base_writeData (p : Pic) (v : Byte) (h : p.base &&& 7 = 0) : (p.writeData v).base &&& 7 = 0 := by
  unfold Pic.writeData
  split
  · exact and_f8_and_7 v
  all_goals exact h

theorem Pic.base_portOut (p : Pic) (q : Word) (v : Byte) (h : p.base &&& 7 = 0) : (p.portOut q v).base &&& 7 = 0 := by
  unfold Pic.portOut
  split
  · rw [Pic.base_writeCommand, h]
  · split
    · exact Pic.base_writeData p v h
    · exact h

theorem Pic.base_raiseIrq (p : Pic) (i : Fin 8) : (p.raiseIrq i).base = p.base := rfl

theorem Pic.base_raiseIrqs (p : Pic) (is : List (Fin 8)) : (p.raiseIrqs is).base = p.base := by
  induction is generalizing p with
  | nil => rfl
  | cons i is ih => exact ih (p.raiseIrq i)

theorem Pic.base_ack (p : Pic) (v : Byte) : (p.ack v).2.base = p.base := by
  unfold Pic.ack; simp only; split <;> rfl

/-! ### The CGA -/

theorem CgaSound.writeByte {c : Cga} {n : Nat} (h : CgaSound c n) (a : Addr) (v : Byte) :
    CgaSound (c.writeByte a v) n :=
  ⟨Memory.vramWf_set a v h.1, h.2⟩

theorem and_fe_and_f6 (v : Byte) : v &&& 0xFE &&& 0xF6 = v &&& 0xF6 := by
  rw [BitVec.and_assoc]; rfl

theorem CgaSound.portIn {c : Cga} {n : Nat} (h : CgaSound c n) (p : Word) : CgaSound (c.portIn p).2 n := by
  unfold Cga.portIn
  split
  all_goals try exact h
  obtain ⟨h1, h2, h3, h4⟩ := h
  refine ⟨h1, ?_, ?_, h4⟩
  · show c.status &&& 0xFE &&& 0xF6 = 0
    rw [and_fe_and_f6, h2]
  · show (c.status &&& 0xFE).getLsbD 3 = _
    rw [← h3]; simp

set_option linter.unusedSimpArgs false in
theorem CgaSound.writeCrt {c : Cga} {n : Nat} (h : CgaSound c n) (v : Byte) : CgaSound (c.writeCrt v) n := by
  obtain ⟨h1, h2, h3, h4, h5, h6⟩ := h
  have key : ∀ k : Fin 256,
      (c.crtReg.set c.crtIndex.toFin v)[k] = if c.crtIndex = BitVec.ofFin k then v else c.crtReg[k] := by
    intro k
    rw [Fin.getElem_fin, Vector.getElem_set]
    have : ((c.crtIndex.toFin : Fin 256) : Nat) = k ↔ c.crtIndex = BitVec.ofFin k := by
      rw [← Fin.ext_iff]
      exact ⟨fun h => by rw [← h], fun h => by rw [h]⟩
    simp only [this, Fin.getElem_fin]
  have kA : (c.crtReg.set c.crtIndex.toFin v)[0x0A] = if c.crtIndex = 0x0A then v else c.crtReg[0x0A] := key 0x0A
  have kE : (c.crtReg.set c.crtIndex.toFin v)[0x0E] = if c.crtIndex = 0x0E then v else c.crtReg[0x0E] := key 0x0E
  have kF : (c.crtReg.set c.crtIndex.toFin v)[0x0F] = if c.crtIndex = 0x0F then v else c.crtReg[0x0F] := key 0x0F
  unfold Cga.writeCrt
  simp only
  split
  · rename_i e
    refine ⟨h1, h2, h3, ?_, ?_, h6⟩ <;> simp only [kA, kE, kF, e] <;> simp [h5]
  · rename_i eA
    split
    · rename_i e
      refine ⟨h1, h2, h3, ?_, ?_, h6⟩ <;> simp only [kA, kE, kF, e] <;> simp [h4, h5]
    · rename_i eE
      split
      · rename_i e
        refine ⟨h1, h2, h3, ?_, ?_, h6⟩ <;> simp only [kA, kE, kF, e] <;> simp [h4, h5]
      · rename_i eF
        refine ⟨h1, h2, h3, ?_, ?_, h6⟩ <;> simp only [kA, kE, kF, eA, eE, eF, if_false] <;> assumption

theorem CgaSound.portOut {c : Cga} {n : Nat} (h : CgaSound c n) (p : Word) (v : Byte) :
    CgaSound (c.portOut p v) n := by
  unfold Cga.portOut
  split
  all_goals first | exact h | exact h.writeCrt v

theorem CgaSound.scanlineTurn {c : Cga} {n : Nat} (h : CgaSound c n)
    (hn : c.lastScanlineNs + Config.scanlinePeriodNs ≤ n) : CgaSound c.scanlineTurn n := by
  obtain ⟨h1, h2, h3, h4, h5, h6, h7⟩ := h
  refine ⟨h1, ?_, ?_, h4, h5, hn, h7⟩
  · show ((c.status &&& 0xF6) ||| 0x01 ||| (if 479 < (c.scanline + 1).val then 0x08 else 0x00)) &&& 0xF6 = 0
    rw [h2]; split <;> rfl
  · show ((c.status &&& 0xF6) ||| 0x01 ||| (if 479 < (c.scanline + 1).val then 0x08 else 0x00)).getLsbD 3 = decide (479 < (c.scanline + 1).val)
    rw [h2]; split <;> rename_i hlt <;> simp only [hlt, decide_true, decide_false] <;> rfl

theorem CgaSound.advance {c : Cga} {n : Nat} (k : Nat) (h : CgaSound c n)
    (hn : c.lastScanlineNs + k * Config.scanlinePeriodNs ≤ n) : CgaSound (c.advance k) n := by
  induction k generalizing c with
  | zero => exact h
  | succ k ih =>
    have hs : c.scanlineTurn.lastScanlineNs = c.lastScanlineNs + Config.scanlinePeriodNs := rfl
    rw [Nat.succ_mul] at hn
    exact ih (h.scanlineTurn (by omega)) (by rw [hs]; omega)

theorem CgaSound.mono {c : Cga} {n m : Nat} (h : CgaSound c n) (hn : n ≤ m) : CgaSound c m := by
  obtain ⟨h1, h2, h3, h4, h5, h6, h7⟩ := h
  exact ⟨h1, h2, h3, h4, h5, h6.trans hn, h7⟩

theorem CgaSound.step {c : Cga} {n : Nat} (cycles now : Nat) (h : CgaSound c n) (hn : n ≤ now) :
    CgaSound (c.step cycles now) now := by
  have h' := h.mono hn
  have hl : c.lastScanlineNs ≤ now := h'.2.2.2.2.2.1
  have hk := Nat.div_mul_le_self (now - c.lastScanlineNs) Config.scanlinePeriodNs
  obtain ⟨-, h2, h3, -, -, h6, -⟩ :=
    h'.advance ((now - c.lastScanlineNs) / Config.scanlinePeriodNs) (by omega)
  exact ⟨h'.1, h2, h3, h'.2.2.2.1, h'.2.2.2.2.1, h6, h'.2.2.2.2.2.2⟩

theorem length_render (p : Snapshot) (b : Bool) : (render p b).length = surfaceSize := by
  simp only [render, List.length_map, List.length_range]

theorem CgaSound.renderTick {c : Cga} {n : Nat} (h : CgaSound c n) (b : Bool) : CgaSound (c.renderTick b) n := by
  obtain ⟨h1, h2, h3, h4, h5, h6, h7⟩ := h
  unfold Cga.renderTick
  simp only
  split
  · refine ⟨h1, h2, h3, h4, h5, h6, Or.inr ?_⟩
    simp only [length_render]
  · exact ⟨h1, h2, h3, h4, h5, h6, h7⟩

theorem CgaSound.renderTicks {c : Cga} {n : Nat} (h : CgaSound c n) (bs : List Bool) :
    CgaSound (c.renderTicks bs) n := by
  induction bs generalizing c with
  | nil => exact h
  | cons b bs ih => exact ih (h.renderTick b)

theorem CgaSound.moment {c : Cga} {n : Nat} (h : CgaSound c n) : CgaSound c.moment n := by
  obtain ⟨h1, h2, h3, h4, h5, h6, h7⟩ := h
  refine ⟨h1, h2, h3, h4, h5, h6, ?_⟩
  show (if c.tickWait = 0 then c.ticked else c).surface.length = 0 ∨
    (if c.tickWait = 0 then c.ticked else c).surface.length = surfaceSize
  split
  · exact (CgaSound.renderTicks ⟨h1, h2, h3, h4, h5, h6, h7⟩ _).2.2.2.2.2.2
  · exact h7

/-- A moment brings the next tick nearer: the render task ticks, or it waits one moment less (R480, U16). -/
theorem Cga.moment_progress (c : Cga) :
    c.moment.ticks = c.ticks + 1 ∨ c.moment.ticks = c.ticks ∧ c.moment.tickWait + 1 = c.tickWait := by
  by_cases h : c.tickWait = 0
  · exact Or.inl (if_pos h)
  · refine Or.inr ⟨if_neg h, ?_⟩
    show (if c.tickWait = 0 then _ else c.tickWait - 1) + 1 = c.tickWait
    rw [if_neg h]; omega

theorem CgaSound.resetRegs {c : Cga} {n : Nat} (h : CgaSound c n) : CgaSound (c.resetRegs n) n := by
  obtain ⟨h1, h2, h3, h4, h5, h6, h7⟩ := h
  refine ⟨h1, (rfl : (0 : Byte) &&& 0xF6 = 0), (rfl : (0 : Byte).getLsbD 3 = decide (479 < (0 : Fin 525).val)), ?_, ?_,
    le_refl n, h7⟩
  · show true = !(Vector.replicate 256 (0 : Byte))[0x0A].getLsbD 5
    rw [Vector.getElem_replicate]; rfl
  · show (0 : Word) = mkWord (Vector.replicate 256 (0 : Byte))[0x0F] (Vector.replicate 256 (0 : Byte))[0x0E]
    rw [Vector.getElem_replicate, Vector.getElem_replicate]; rfl

/-! ### The whole state -/

/-- Changing only registers, flags, prefixes, draws, the platform's devices or the host's own fields keeps the devices
sound. -/
theorem DeviceSound.congr {s t : State} (h : DeviceSound s) (hm : t.mem = s.mem) (hp : t.pic.base = s.pic.base)
    (hc : t.cga = s.cga) (hn : t.now = s.now) : DeviceSound t := by
  unfold DeviceSound; rw [hm, hp, hc, hn]; exact h

theorem DeviceSound.write8 {s : State} (h : DeviceSound s) (a : Addr) (v : Byte) : DeviceSound (s.write8 a v) := by
  obtain ⟨h1, h2, h3⟩ := h
  unfold State.write8
  split
  · exact ⟨Memory.wf_set a v h1, h2, h3⟩
  · exact ⟨h1, h2, h3.moment.writeByte a v⟩
  all_goals exact ⟨h1, h2, h3⟩

theorem DeviceSound.write16 {s : State} (h : DeviceSound s) (a : Addr) (v : Word) : DeviceSound (s.write16 a v) := by
  unfold State.write16
  exact (h.write8 a _).write8 _ _

theorem DeviceSound.push16 {s : State} (h : DeviceSound s) (v : Word) : DeviceSound (s.push16 v) := by
  have h' : DeviceSound (s.setSp (s.regs.sp - 2)) := h.congr rfl rfl rfl rfl
  unfold State.push16
  simp only
  exact h'.write16 _ v

theorem DeviceSound.setFlags {s : State} (h : DeviceSound s) (f : Flags) : DeviceSound (s.setFlags f) :=
  h.congr rfl rfl rfl rfl

theorem DeviceSound.note {s : State} (h : DeviceSound s) (es : List DeviceEvent) : DeviceSound (s.note es) :=
  h.congr rfl rfl rfl rfl

theorem DeviceSound.setIp {s : State} (h : DeviceSound s) (v : Word) : DeviceSound (s.setIp v) :=
  h.congr rfl rfl rfl rfl

theorem DeviceSound.setCs {s : State} (h : DeviceSound s) (v : Word) : DeviceSound (s.setCs v) :=
  h.congr rfl rfl rfl rfl

theorem DeviceSound.interrupt {s : State} (h : DeviceSound s) (n : Byte) : DeviceSound (s.interrupt n) := by
  unfold State.interrupt
  simp only
  exact (((((h.push16 _).setFlags _).push16 _).push16 _ |>.note _).note _ |>.setIp _).setCs _

theorem DeviceSound.portIn8 {s : State} (h : DeviceSound s) (p : Word) : DeviceSound (s.portIn8 p).2 := by
  obtain ⟨h1, h2, h3⟩ := h
  unfold State.portIn8
  split
  · exact ⟨h1, h2, h3⟩
  · exact ⟨h1, h2, h3.portIn p⟩
  all_goals exact ⟨h1, h2, h3⟩

theorem DeviceSound.portOut8 {s : State} (h : DeviceSound s) (p : Word) (v : Byte) :
    DeviceSound (s.portOut8 p v) := by
  obtain ⟨h1, h2, h3⟩ := h
  unfold State.portOut8
  split
  · exact ⟨h1, Pic.base_portOut _ p v h2, h3⟩
  · exact ⟨h1, h2, h3.moment.portOut p v⟩
  all_goals exact ⟨h1, h2, h3⟩

theorem DeviceSound.hostWrite {s : State} (h : DeviceSound s) (w : HostWrite) : DeviceSound (s.hostWrite w) := by
  cases w with
  | mem a v => exact h.write8 a v
  | reg r v => exact h.congr rfl rfl rfl rfl
  | seg r v => exact h.congr (by simp [State.hostWrite]) (by simp [State.hostWrite]) (by simp [State.hostWrite]) (by simp [State.hostWrite])
  | ip v => exact h.congr rfl rfl rfl rfl
  | flags f => exact h.congr rfl rfl rfl rfl

theorem DeviceSound.hostWrites {s : State} (h : DeviceSound s) (ws : List HostWrite) :
    DeviceSound (s.hostWrites ws) := by
  induction ws generalizing s with
  | nil => exact h
  | cons w ws ih => exact ih (h.hostWrite w)

theorem DeviceSound.runHook {s : State} (h : DeviceSound s) (n : Byte) : DeviceSound (s.runHook n) :=
  (h.hostWrites (hookHandler n s)).congr rfl rfl rfl rfl

theorem DeviceSound.takeInput {s : State} (h : DeviceSound s) : DeviceSound s.takeInput :=
  h.congr rfl (Pic.base_raiseIrqs _ _) rfl rfl

theorem DeviceSound.stepPeripherals {s : State} (h : DeviceSound s) (e : Nat) : DeviceSound (s.stepPeripherals e) :=
  ⟨h.1, h.2.1, h.2.2.step _ _ (Nat.le_add_right ..)⟩

theorem DeviceSound.counted {s : State} (h : DeviceSound s) : DeviceSound s.counted := h

theorem DeviceSound.renderMoment {s : State} (h : DeviceSound s) : DeviceSound s.renderMoment :=
  ⟨h.1, h.2.1, h.2.2.moment⟩

theorem DeviceSound.afterStep {s : State} (h : DeviceSound s) (e : Nat) : DeviceSound (s.afterStep e) := by
  unfold State.afterStep
  split
  · exact h.counted.renderMoment
  · exact (h.counted.stepPeripherals e).renderMoment

theorem DeviceSound.hostReset {s : State} (h : DeviceSound s) : DeviceSound s.hostReset :=
  ⟨h.1, (rfl : (0x08 : Byte) &&& 7 = 0), h.2.2.resetRegs⟩

/-! ### Reset -/

/-- The memory after reset is in canonical form. -/
theorem reset_memory_wf : State.reset.mem.wf = true := rfl

end Sys2Proof.Machine
end

