-- ==== Sys2Proof/Laws/Ops.lean ====
section
/-! SUPPORT. What the shared operations of Machine/Ops.lean and Machine/Operands.lean can do, said once each: stores to a
place, flags, the stack, input and output. -/

namespace Sys2Proof.Machine

/-! ### Frames of updates -/

theorem SystemSame.refl (s : State) (l : List Addr) : SystemSame s s l :=
  ⟨rfl, fun _ => rfl, HistoryGrows.refl s, fun _ => rfl⟩

theorem systemSame_set16 (s : State) (r : Reg16) (v : Word) (l : List Addr) : SystemSame s (s.set16 r v) l :=
  ⟨rfl, fun _ => rfl, ⟨[], rfl⟩, fun _ => rfl⟩

theorem systemSame_write8 (s : State) (a : Addr) (v : Byte) : SystemSame s (s.write8 a v) [a] := by
  refine ⟨?_, fun h => s.write8_cga_of_ne a v (h a (by simp)), historyGrows_write8 s a v,
    fun h => State.write8_devices_of_not v (h a)⟩
  unfold State.write8; split <;> rfl

theorem systemSame_write16 (s : State) (a : Addr) (v : Word) : SystemSame s (s.write16 a v) [a, a + 1] := by
  refine ⟨?_, ?_, historyGrows_write16 s a v, ?_⟩
  · unfold State.write16 State.write8
    split <;> simp only <;> split <;> rfl
  · intro h
    have h0 := h a (by simp)
    have h1 := h (a + 1) (by simp)
    unfold State.write16
    rw [State.write8_cga_of_ne _ _ _ (by rw [State.write8_memMap]; exact h1), State.write8_cga_of_ne _ _ _ h0]
  · intro h
    unfold State.write16
    rw [State.write8_devices_of_not _ fun hp => h _ ((PlatformOwns.congr (State.write8_memMap ..) _).1 hp),
      State.write8_devices_of_not _ (h a)]

theorem byteFrame_set8 (s : State) (r : Reg8) (v : Byte) : ByteFrame s (s.set8 r v) [r] [] := by
  refine ⟨⟨fun q hq => ?_, ?_⟩, ⟨rfl, rfl, rfl, rfl⟩, rfl, memoryOutside_of_eq rfl rfl rfl _,
    systemSame_set16 ..⟩
  · rw [State.get8_set8, if_neg (by simpa using hq)]
  · cases r <;> exact ⟨rfl, rfl, rfl, rfl⟩

theorem wordFrame_set16 (s : State) (r : Reg16) (v : Word) : WordFrame s (s.set16 r v) [r] [] := by
  refine ⟨fun q hq => ?_, ⟨rfl, rfl, rfl, rfl⟩, rfl, memoryOutside_of_eq rfl rfl rfl _, systemSame_set16 ..⟩
  rw [State.get16_set16, if_neg (by simpa using hq)]

theorem byteFrame_write8 (s : State) (a : Addr) (v : Byte) : ByteFrame s (s.write8 a v) [] [a] := by
  refine ⟨⟨fun q _ => State.get8_congr (State.write8_regs ..) q, ?_⟩, ?_, State.write8_ip .., memoryOutside_write8 s a v,
    systemSame_write8 s a v⟩
  · simp
  · exact ⟨State.write8_cs .., State.write8_ds .., State.write8_es .., State.write8_ss ..⟩

theorem wordFrame_write16 (s : State) (a : Addr) (v : Word) : WordFrame s (s.write16 a v) [] [a, a + 1] := by
  refine ⟨fun q _ => State.get16_congr (State.write16_regs ..) q, ?_, State.write16_ip .., memoryOutside_write16 s a v,
    systemSame_write16 s a v⟩
  exact ⟨State.write16_cs .., State.write16_ds .., State.write16_es .., State.write16_ss ..⟩

/-! ### Stores to a place -/

/-- A byte stored to a place: the place holds it and nothing else changes, flags included. -/
theorem putsByte_store8 (s : State) (p : Place Reg8) (v : Byte) : PutsByte s (s.store8 p v) p v := by
  cases p with
  | reg r => exact ⟨by simp [Holds8, State.store8, State.get8_set8], byteFrame_set8 s r v⟩
  | mem a => exact ⟨s.byteStored_write8 a v, byteFrame_write8 s a v⟩

/-- A word stored to a place: the place holds it and nothing else changes, flags included. -/
theorem putsWord_store16 (s : State) (p : Place Reg16) (v : Word) : PutsWord s (s.store16 p v) p v := by
  cases p with
  | reg r => exact ⟨by simp [Holds16, State.store16], wordFrame_set16 s r v⟩
  | mem a => exact ⟨s.wordStored_write16 a v, wordFrame_write16 s a v⟩

@[simp] theorem State.store8_flags (s : State) (p : Place Reg8) (v : Byte) : (s.store8 p v).flags = s.flags := by
  cases p <;> simp [State.store8, State.set8]

@[simp] theorem State.store16_flags (s : State) (p : Place Reg16) (v : Word) : (s.store16 p v).flags = s.flags := by
  cases p <;> simp [State.store16]

/-! ### What a store does to the platform's devices (R89, R105) -/

theorem State.write8_devices (s : State) (a : Addr) (v : Byte) :
    (s.write8 a v).devices = writeEvents s.memMap a v ++ s.devices := by
  unfold State.write8 writeEvents; split <;> simp [State.note, *]

theorem State.write16_devices (s : State) (a : Addr) (v : Word) :
    (s.write16 a v).devices = wordWriteEvents s.memMap a v ++ s.devices := by
  simp [State.write16, State.write8_devices, wordWriteEvents]

theorem State.push16_devices (s : State) (v : Word) :
    (s.push16 v).devices = wordWriteEvents s.memMap (lin s.ss (s.regs.sp - 2)) v ++ s.devices :=
  State.write16_devices ..

theorem State.store8_devices (s : State) (p : Place Reg8) (v : Byte) :
    (s.store8 p v).devices = storeEvents8 s.memMap p v ++ s.devices := by
  cases p with
  | reg r => rfl
  | mem a => exact State.write8_devices ..

theorem State.store16_devices (s : State) (p : Place Reg16) (v : Word) :
    (s.store16 p v).devices = storeEvents16 s.memMap p v ++ s.devices := by
  cases p with
  | reg r => rfl
  | mem a => exact State.write16_devices ..

/-! ### Flags, draws and reads beside a store -/

/-- A state that differs in nothing but flags, draws and what has happened to the platform's devices: what the reads, the
flags and the draws of an instruction leave before it stores. -/
def Beside (s u : State) : Prop :=
  u = { s with flags := u.flags, draws := u.draws, devices := u.devices } ∧ HistoryGrows s u ∧
    ((∀ a, ¬PlatformOwns s a) → u.devices = s.devices)

theorem Beside.refl (s : State) : Beside s s := ⟨rfl, HistoryGrows.refl s, fun _ => rfl⟩

theorem Beside.trans {s u t : State} (h : Beside s u) (h' : Beside u t) : Beside s t := by
  obtain ⟨h1, h2, h3⟩ := h
  obtain ⟨h1', h2', h3'⟩ := h'
  have hp : u.memMap = s.memMap := by rw [h1]
  refine ⟨by rw [h1', h1], h2.trans h2', fun ha => ?_⟩
  rw [h3' fun a hn => ha a ((PlatformOwns.congr hp a).1 hn), h3 ha]

theorem beside_setFlags (s : State) (f : Flags) : Beside s (s.setFlags f) := ⟨rfl, ⟨[], rfl⟩, fun _ => rfl⟩

theorem beside_drew (s : State) (b : Bool) : Beside s (s.drew b) := ⟨rfl, ⟨[], rfl⟩, fun _ => rfl⟩

theorem beside_afterLoad8 (s : State) (p : Place Reg8) : Beside s (s.afterLoad8 p) := by
  refine ⟨rfl, historyGrows_note s _, fun h => ?_⟩
  cases p with
  | reg r => rfl
  | mem a => simp [State.afterLoad8, loadEvents8, readEvents_of_not (h a)]

theorem beside_afterRead16 (s : State) (a : Addr) : Beside s (s.afterRead16 a) :=
  ⟨rfl, historyGrows_note s _, fun h => by
    rw [State.afterRead16_of_not (h a) (h (a + 1))]⟩

theorem beside_afterLoad16 (s : State) (p : Place Reg16) : Beside s (s.afterLoad16 p) := by
  refine ⟨rfl, historyGrows_note s _, fun h => ?_⟩
  cases p with
  | reg r => rfl
  | mem a => exact (beside_afterRead16 s a).2.2 h

/-- What is beside a store writes no place. -/
theorem Beside.putsNothing {s u : State} (h : Beside s u) : PutsNothing s u := by
  obtain ⟨h1, h2, h3⟩ := h
  refine ⟨fun _ _ => State.get16_congr (by rw [h1]) _, ⟨?_, ?_, ?_, ?_⟩, ?_,
    memoryOutside_of_eq (by rw [h1]) (by rw [h1]) (by rw [h1]) _, ⟨?_, fun _ => by rw [h1], h2, h3⟩⟩ <;> rw [h1]
  rfl

theorem SystemSame.earlier {s u t : State} {l : List Addr} (hb : Beside s u) (h : SystemSame u t l) :
    SystemSame s t l := by
  obtain ⟨h1, h2, h3⟩ := hb
  obtain ⟨g1, g2, g3, g4⟩ := h
  have hp : u.memMap = s.memMap := by rw [h1]
  have hc : u.cga = s.cga := by rw [h1]
  refine ⟨?_, fun hs => ?_, h2.trans g3, fun ha => ?_⟩
  · rw [h1] at g1; exact g1
  · rw [g2 (by rw [hp]; exact hs), hc]
  · rw [g4 fun a hn => ha a ((PlatformOwns.congr hp a).1 hn), h3 ha]

/-- A store after what is beside it. -/
theorem PutsByte.beside {s u t : State} {p : Place Reg8} {v : Byte} (hb : Beside s u) (h : PutsByte u t p v) :
    PutsByte s t p v := by
  obtain ⟨h1, ⟨h2, h3⟩, ⟨h4, h5, h6, h7⟩, h8, h9, h10⟩ := h
  have hu := hb.1
  have hg := hb.2.1
  have hr : u.regs = s.regs := by rw [hu]
  have hm : u.mem = s.mem := by rw [hu]
  have hv : u.cga.vram = s.cga.vram := by rw [hu]
  have hp : u.memMap = s.memMap := by rw [hu]
  refine ⟨?_, ⟨fun q hq => (h2 q hq).trans (State.get8_congr hr q), by rw [← hr]; exact h3⟩, ⟨?_, ?_, ?_, ?_⟩, ?_,
    h9.earlier hm hv hp hg h10.2.2.1, h10.earlier hb⟩
  · cases p with
    | reg r => exact h1
    | mem a => exact ByteStored.earlier h1 hm hv hp hg
  · rw [h4, hu]
  · rw [h5, hu]
  · rw [h6, hu]
  · rw [h7, hu]
  · rw [h8, hu]

theorem PutsWord.beside {s u t : State} {p : Place Reg16} {v : Word} (hb : Beside s u) (h : PutsWord u t p v) :
    PutsWord s t p v := by
  obtain ⟨h1, h2, ⟨h4, h5, h6, h7⟩, h8, h9, h10⟩ := h
  have hu := hb.1
  have hg := hb.2.1
  have hr : u.regs = s.regs := by rw [hu]
  have hm : u.mem = s.mem := by rw [hu]
  have hv : u.cga.vram = s.cga.vram := by rw [hu]
  have hp : u.memMap = s.memMap := by rw [hu]
  refine ⟨?_, fun q hq => (h2 q hq).trans (State.get16_congr hr q), ⟨?_, ?_, ?_, ?_⟩, ?_,
    h9.earlier hm hv hp hg h10.2.2.1, h10.earlier hb⟩
  · cases p with
    | reg r => exact h1
    | mem a => exact WordStored.earlier h1 hm hv hp hg
  · rw [h4, hu]
  · rw [h5, hu]
  · rw [h6, hu]
  · rw [h7, hu]
  · rw [h8, hu]

/-- An ALU operation with a byte destination. -/
theorem State.alu8_spec (s : State) (op : AluOp) (p : Place Reg8) (a b : Byte) :
    (s.alu8 op p a b).flags = s.flags.afterAlu op a b s.freeFlags ∧
      (aluWrites op = true → PutsByte s (s.alu8 op p a b) p (aluResult op a b s.flags.cf)) ∧
      (aluWrites op = false → PutsNothing s (s.alu8 op p a b)) := by
  unfold State.alu8 State.aluFlags
  refine ⟨?_, fun h => ?_, fun h => ?_⟩
  · split <;> simp
  · rw [if_pos h]; exact (putsByte_store8 _ p _).beside ((beside_setFlags ..).trans (beside_drew ..))
  · rw [h]; exact ((beside_setFlags ..).trans (beside_drew ..)).putsNothing

/-- An ALU operation with a word destination. -/
theorem State.alu16_spec (s : State) (op : AluOp) (p : Place Reg16) (a b : Word) :
    (s.alu16 op p a b).flags = s.flags.afterAlu op a b s.freeFlags ∧
      (aluWrites op = true → PutsWord s (s.alu16 op p a b) p (aluResult op a b s.flags.cf)) ∧
      (aluWrites op = false → PutsNothing s (s.alu16 op p a b)) := by
  unfold State.alu16 State.aluFlags
  refine ⟨?_, fun h => ?_, fun h => ?_⟩
  · split <;> simp
  · rw [if_pos h]; exact (putsWord_store16 _ p _).beside ((beside_setFlags ..).trans (beside_drew ..))
  · rw [h]; exact ((beside_setFlags ..).trans (beside_drew ..)).putsNothing

/-- A shift or rotate of a byte operand. -/
theorem State.shift8_spec (s : State) (op : ShiftOp) (rm : RM Reg8) (n : Nat) :
    (s.shift8 op rm n).flags = s.flags.afterShift op (s.rm8 rm) n s.freeFlags ∧
      PutsByte s (s.shift8 op rm n) (s.place rm) (shiftIter op n (s.rm8 rm, s.flags.cf)).1 :=
  ⟨by simp [State.shift8], (putsByte_store8 _ _ _).beside
    (((beside_afterLoad8 ..).trans (beside_setFlags ..)).trans (beside_drew ..))⟩

/-- A shift or rotate of a word operand. -/
theorem State.shift16_spec (s : State) (op : ShiftOp) (rm : RM Reg16) (n : Nat) :
    (s.shift16 op rm n).flags = s.flags.afterShift op (s.rm16 rm) n s.freeFlags ∧
      PutsWord s (s.shift16 op rm n) (s.place rm) (shiftIter op n (s.rm16 rm, s.flags.cf)).1 :=
  ⟨by simp [State.shift16], (putsWord_store16 _ _ _).beside
    (((beside_afterLoad16 ..).trans (beside_setFlags ..)).trans (beside_drew ..))⟩

/-! ### The stack (R18) -/

/-- A push: the word is stored at the new top of the stack and `SP` is 2 lower. -/
theorem State.push16_spec (s : State) (v : Word) :
    WordStored s (s.push16 v) (lin s.ss (s.regs.sp - 2)) v ∧
      MemoryOutside s (s.push16 v) [lin s.ss (s.regs.sp - 2), lin s.ss (s.regs.sp - 2) + 1] ∧
      (s.push16 v).regs = { s.regs with sp := s.regs.sp - 2 } := by
  have hg : HistoryGrows s (s.setSp (s.regs.sp - 2)) := ⟨[], rfl⟩
  exact ⟨((s.setSp (s.regs.sp - 2)).wordStored_write16 (lin s.ss (s.regs.sp - 2)) v).earlier rfl rfl rfl hg,
    (memoryOutside_write16 (s.setSp (s.regs.sp - 2)) (lin s.ss (s.regs.sp - 2)) v).earlier rfl rfl rfl hg
      (historyGrows_write16 ..), State.push16_regs s v⟩

theorem systemSame_push16 (s : State) (v : Word) :
    SystemSame s (s.push16 v) [lin s.ss (s.regs.sp - 2), lin s.ss (s.regs.sp - 2) + 1] := by
  have h := systemSame_write16 (s.setSp (s.regs.sp - 2)) (lin s.ss (s.regs.sp - 2)) v
  exact ⟨h.1, h.2.1, h.2.2.1, h.2.2.2⟩

/-! ### Transfers (R146) -/

@[simp] theorem State.jumpIf_true (s : State) (rel : Byte) : s.jumpIf true rel = s.setIp (s.ip + rel.signExtend 16) := rfl

@[simp] theorem State.jumpIf_false (s : State) (rel : Byte) : s.jumpIf false rel = s := rfl

/-! ### Every instruction answers a next state -/

/-- No instruction faults and none is refused: the only stops are in the step (R410, R409, R526). -/
theorem exec_isNext (i : Instr) (s : State) : ∃ t, exec i s = .next t := by
  cases i <;> exact ⟨_, rfl⟩

end Sys2Proof.Machine
end

