-- ==== Sys2Proof/Laws/BusEvents.lean ====
section
/-! SUPPORT. What the shared operations do to the platform's devices (20_memory.md R105), in the terms of the claims: one
lemma per operation, for the proofs about `busEvents`. -/

namespace Sys2Proof.Machine

/-! ### Addresses and values -/

theorem State.segOr_ds (s : State) : s.segOr .ds = dataSegment s := by
  unfold State.segOr dataSegment
  cases s.pend.ovr <;> rfl

theorem State.srcAddr_eq (s : State) : s.srcAddr = sourceAt s := by simp [State.srcAddr, sourceAt, State.segOr_ds]

theorem ivtAddr_eq (n : Byte) : ivtAddr n = BitVec.ofNat 20 (4 * n.toNat) := by
  apply BitVec.eq_of_toNat_eq
  simp [ivtAddr, BitVec.toNat_shiftLeft, Nat.shiftLeft_eq]
  omega

theorem ivtAddr_add_two (n : Byte) : ivtAddr n + 2 = BitVec.ofNat 20 (4 * n.toNat + 2) := by
  rw [ivtAddr_eq]
  apply BitVec.eq_of_toNat_eq
  simp [BitVec.toNat_add]

theorem aluResult_add {w : Nat} (a b : BitVec w) (c : Bool) : aluResult .add a b c = a + b := by
  simp [aluResult, addResult, ← BitVec.ofNat_add_ofNat]

theorem aluResult_sub {w : Nat} (a b : BitVec w) (c : Bool) : aluResult .sub a b c = a - b := by
  simp [aluResult, subResult]

theorem aluResult_adc {w : Nat} (s : State) (a b : BitVec w) :
    aluResult .adc a b s.flags.cf = a + b + carry s w := by
  apply BitVec.eq_of_toNat_eq
  cases h : s.flags.cf <;> simp [aluResult, addResult, carry, h, BitVec.toNat_add, BitVec.toNat_ofNat]

theorem aluResult_sbb {w : Nat} (s : State) (a b : BitVec w) :
    aluResult .sbb a b s.flags.cf = a - b - carry s w := by
  cases h : s.flags.cf <;> simp [aluResult, subResult, carry, h]

theorem idivOverflow_eq (w : Nat) (q : Int) : idivOverflow w q = Misfits w q := by
  unfold idivOverflow Misfits OutOfRange
  generalize (2 : Int) ^ (w - 1) = k
  cases Config.idivMinQuotientFits <;> rw [Bool.eq_iff_iff] <;> simp <;> omega

theorem State.dividend32_toNat (s : State) :
    s.dividend32.toNat = s.regs.dx.toNat * 65536 + s.regs.ax.toNat := by
  rw [State.dividend32, BitVec.toNat_append, ← Nat.shiftLeft_add_eq_or_of_lt s.regs.ax.isLt, Nat.shiftLeft_eq]

/-! ### The stack and far pointers (R18, R103) -/

theorem State.push16_events (s : State) (v : Word) : (s.push16 v).devices = pushes s 1 v ++ s.devices :=
  State.push16_devices ..

theorem State.drop16_events (s : State) : s.drop16.devices = pops s 1 ++ s.devices := by simp [pops, State.stackAddr]

theorem State.afterFar_events (s : State) (m : Mem) : (s.afterFar m).devices = readsFar s m ++ s.devices := by
  simp [State.afterFar, readsFar, State.afterRead16, State.memAddr2, State.memAddr]

theorem State.callFar_events (s : State) (off seg : Word) :
    (s.callFar off seg).devices = pushes s 2 s.ip ++ pushes s 1 s.cs ++ s.devices := by
  simp only [State.callFar, State.jumpFar, State.setCs_devices, State.setIp_devices, State.push16_devices]
  simp [State.push16, pushes, BitVec.sub_sub]

/-! ### Operands (R266, R286) -/

theorem State.alu8_events (s : State) (op : AluOp) (p : Place Reg8) (a b : Byte) :
    (s.alu8 op p a b).devices =
      (if aluWrites op then storeEvents8 s.memMap p (aluResult op a b s.flags.cf) else []) ++ s.devices := by
  unfold State.alu8
  split <;> simp [State.store8_devices, State.aluFlags]

theorem State.alu16_events (s : State) (op : AluOp) (p : Place Reg16) (a b : Word) :
    (s.alu16 op p a b).devices =
      (if aluWrites op then storeEvents16 s.memMap p (aluResult op a b s.flags.cf) else []) ++ s.devices := by
  unfold State.alu16
  split <;> simp [State.store16_devices, State.aluFlags]

theorem State.shift8_events (s : State) (op : ShiftOp) (rm : RM Reg8) (n : Nat) :
    (s.shift8 op rm n).devices = updates8 s rm (fun x => (shiftIter op n (x, s.flags.cf)).1) ++ s.devices := by
  simp [State.shift8, State.store8_devices, updates8, writes8, reads8, State.afterRm8, State.afterLoad8]

theorem State.shift16_events (s : State) (op : ShiftOp) (rm : RM Reg16) (n : Nat) :
    (s.shift16 op rm n).devices = updates16 s rm (fun x => (shiftIter op n (x, s.flags.cf)).1) ++ s.devices := by
  simp [State.shift16, State.store16_devices, updates16, writes16, reads16, State.afterRm16, State.afterLoad16]

/-! ### Ports (R98, R99) -/

theorem State.portIn8_events (s : State) (p : Word) :
    (s.portIn8 p).2.devices = portInEvents s.ioMap p ++ s.devices := by
  unfold State.portIn8 portInEvents
  split <;> simp [State.note, *]

theorem State.portOut8_events (s : State) (p : Word) (v : Byte) :
    (s.portOut8 p v).devices = portOutEvents s.ioMap p v ++ s.devices := by
  unfold State.portOut8 portOutEvents
  split <;> simp [State.note, *]

/-! ### Repeats (R312) -/

theorem State.afterIteration_devices (s : State) (more : Bool) : (s.afterIteration more).devices = s.devices := by
  unfold State.afterIteration
  dsimp only
  split <;> rfl

theorem State.repeated_events {s : State} {once : State → State} {es : List DeviceEvent}
    (h : (once s).devices = es ++ s.devices) : (s.repeated once).devices = element s es ++ s.devices := by
  unfold State.repeated element
  cases s.pend.rep with
  | none => simpa using h
  | some r => by_cases hc : s.regs.cx = 0#16 <;> simp [hc, State.afterIteration_devices, h]

theorem State.repeatedCompare_events {s : State} {once : State → State} {es : List DeviceEvent}
    (h : (once s).devices = es ++ s.devices) : (s.repeatedCompare once).devices = element s es ++ s.devices := by
  unfold State.repeatedCompare element
  cases s.pend.rep with
  | none => simpa using h
  | some r => by_cases hc : s.regs.cx = 0#16 <;> simp [hc, State.afterIteration_devices, h]

end Sys2Proof.Machine
end

