-- ==== Sys2Proof/Laws/Fetch.lean ====
section
/-! SUPPORT. Fetching one byte after the other (00_scope.md R17; 30_encoding.md R130): the decoder needs no byte beyond an
instruction's last, and what the bytes fetched, and the state after them, do not depend on. -/

namespace Sys2Proof.Machine

/-! ### The decoder and the bytes that follow -/

/-- A part of the decoder answers, on more bytes, the same with those bytes left over, unless it ran out of bytes; and it
takes at most n bytes. -/
def Local {α : Type} (n : Nat) (f : List Byte → Except DecodeError (α × List Byte)) : Prop :=
  ∀ bs, (f bs = .error .truncated ∨ ∀ ext, f (bs ++ ext) = (f bs).map fun d => (d.1, d.2 ++ ext)) ∧
    ∀ d, f bs = .ok d → bs.length ≤ d.2.length + n

theorem Local.ok {α : Type} (a : α) : Local 0 fun bs => .ok (a, bs) := fun _ =>
  ⟨.inr fun _ => rfl, fun d h => by cases h; exact Nat.le_refl _⟩

theorem Local.error {α : Type} (e : DecodeError) : Local (α := α) 0 fun _ => .error e := fun _ =>
  ⟨.inr fun _ => rfl, fun _ h => by cases h⟩

theorem Local.mono {α : Type} {n k : Nat} {f : List Byte → Except DecodeError (α × List Byte)} (h : Local n f)
    (hk : n ≤ k) : Local k f := fun bs =>
  ⟨(h bs).1, fun d hd => Nat.le_trans ((h bs).2 d hd) (Nat.add_le_add_left hk _)⟩

theorem Local.bind {α β : Type} {n k : Nat} {f : List Byte → Except DecodeError (α × List Byte)}
    {g : α → List Byte → Except DecodeError (β × List Byte)} (hf : Local n f) (hg : ∀ a, Local k (g a)) :
    Local (n + k) fun bs => (f bs).bind fun d => g d.1 d.2 := by
  intro bs
  obtain ⟨h1, h2⟩ := hf bs
  cases hfb : f bs with
  | error e =>
    refine ⟨?_, fun d h => by simp [hfb, Except.bind] at h⟩
    rcases h1 with h1 | h1
    · left; rw [hfb] at h1; simp [hfb, Except.bind, h1]
    · right; intro ext; simp [hfb, h1 ext, Except.bind, Except.map]
  | ok d =>
    obtain ⟨h3, h4⟩ := hg d.1 d.2
    have h5 := h2 d hfb
    refine ⟨?_, fun e h => ?_⟩
    · rcases h3 with h3 | h3
      · left; simp [hfb, Except.bind, h3]
      · right; intro ext
        rcases h1 with h1 | h1
        · rw [hfb] at h1; cases h1
        · simp [hfb, h1 ext, Except.bind, Except.map, h3 ext]
    · have := h4 e (by simpa [hfb, Except.bind] using h)
      omega

theorem Local.map {α β : Type} {n : Nat} {f : List Byte → Except DecodeError (α × List Byte)} (hf : Local n f)
    (g : α → β) : Local n fun bs => (f bs).map fun d => (g d.1, d.2) := by
  have h : Local (n + 0) fun bs => (f bs).bind fun d => (.ok (g d.1, d.2) : Except DecodeError (β × List Byte)) :=
    hf.bind fun a => Local.ok (g a)
  intro bs
  have hm : ∀ x : Except DecodeError (α × List Byte),
      (x.map fun d => (g d.1, d.2)) = x.bind fun d => .ok (g d.1, d.2) := fun x => by cases x <;> rfl
  simp only [hm]
  exact h bs

theorem local_takeByte : Local 1 takeByte := by
  intro bs
  rcases bs with _ | ⟨b, rest⟩
  · exact ⟨.inl rfl, fun _ h => by cases h⟩
  · exact ⟨.inr fun _ => rfl, fun d h => by cases h; simp⟩

theorem local_takeWord : Local 2 takeWord := by
  intro bs
  rcases bs with _ | ⟨a, _ | ⟨b, rest⟩⟩
  · exact ⟨.inl rfl, fun _ h => by cases h⟩
  · exact ⟨.inl rfl, fun _ h => by cases h⟩
  · exact ⟨.inr fun _ => rfl, fun d h => by cases h; simp⟩

theorem local_takeMem (m : Byte) : Local 2 (takeMem m) := by
  unfold takeMem
  split
  · split
    · exact local_takeWord.map _
    · exact (Local.ok _).mono (by omega)
  · exact (local_takeByte.map fun v => (.based (eaBaseOf (rmOf m)) (.d8 v) : Mem)).mono (by omega)
  · exact local_takeWord.map fun v => (.based (eaBaseOf (rmOf m)) (.d16 v) : Mem)

theorem local_takeRM {ρ : Type} (f : BitVec 3 → ρ) (m : Byte) : Local 2 (takeRM f m) := by
  unfold takeRM
  split
  · exact (Local.ok _).mono (by omega)
  · exact (local_takeMem m).map _

theorem local_takeGroup (op m : Byte) (g : GroupForm) : Local 4 (takeGroup op m g) := by
  cases g with
  | rm8 f => exact ((local_takeRM _ m).map f).mono (by omega)
  | rm16 f => exact ((local_takeRM _ m).map f).mono (by omega)
  | mem f =>
    by_cases hm : modOf m = 3
    · rw [show takeGroup op m (.mem f) = fun _ => .error (.invalidForm op m) from funext fun _ => if_pos hm]
      exact (Local.error _).mono (by omega)
    · rw [show takeGroup op m (.mem f) = fun rest => (takeMem m rest).map fun d => (f d.1, d.2) from
        funext fun _ => if_neg hm]
      exact ((local_takeMem m).map f).mono (by omega)
  | rm8ib f => exact ((local_takeRM _ m).bind fun d => local_takeByte.map (f d)).mono (by omega)
  | rm16ib f => exact ((local_takeRM _ m).bind fun d => local_takeByte.map (f d)).mono (by omega)
  | rm16iw f => exact (local_takeRM _ m).bind fun d => local_takeWord.map (f d)

theorem local_takeLayout (op : Byte) (l : Layout) : Local 5 (takeLayout op l) := by
  cases l with
  | plain i => exact (Local.ok i).mono (by omega)
  | ib f => exact (local_takeByte.map f).mono (by omega)
  | iw f => exact (local_takeWord.map f).mono (by omega)
  | far f => exact Local.mono (n := 2 + 2) (local_takeWord.bind fun d => local_takeWord.map (f d)) (by omega)
  | rmReg8 f =>
    exact Local.mono (n := 1 + 2) (local_takeByte.bind fun m => (local_takeRM reg8Of m).map fun d => f d (reg8Of (regOf m)))
      (by omega)
  | rmReg16 f =>
    exact Local.mono (n := 1 + 2)
      (local_takeByte.bind fun m => (local_takeRM reg16Of m).map fun d => f d (reg16Of (regOf m))) (by omega)
  | esc high =>
    exact Local.mono (n := 1 + 2)
      (local_takeByte.bind fun m => (local_takeRM reg16Of m).map fun d => Instr.escRm (high ++ regOf m) d) (by omega)
  | regMem f =>
    refine Local.mono (n := 1 + 2) (local_takeByte.bind (g := fun m rest => if modOf m = 3 then .error (.invalidForm op m)
      else (takeMem m rest).map fun d => (f (reg16Of (regOf m)) d.1, d.2)) fun m => ?_) (by omega)
    by_cases hm : modOf m = 3
    · simp only [hm, if_true]; exact (Local.error _).mono (by omega)
    · simp only [hm, if_false]; exact (local_takeMem m).map _
  | group g =>
    refine local_takeByte.bind (k := 4) (g := fun m rest => match g (regOf m) with
      | none => .error (.invalidForm op m)
      | some form => takeGroup op m form rest) fun m => ?_
    cases g (regOf m) with
    | none => exact (Local.error _).mono (by omega)
    | some form => exact local_takeGroup op m form

/-- The decoder takes what it needs from the front of the bytes, six at most, and no more (R130). -/
theorem local_decode : Local 6 decode := by
  intro bs
  rcases bs with _ | ⟨op, rest⟩
  · exact ⟨.inl rfl, fun _ h => by cases h⟩
  · simp only [decode, List.cons_append]
    cases opcodeLayout op with
    | none => exact ⟨.inr fun _ => rfl, fun _ h => by cases h⟩
    | some l =>
      obtain ⟨h1, h2⟩ := local_takeLayout op l rest
      exact ⟨h1, fun d h => by have := h2 d h; simp; omega⟩

/-- An instruction has at most six bytes (R130). -/
theorem length_of_decode {bs : List Byte} {i : Instr} (h : decode bs = .ok (i, [])) : bs.length ≤ maxLength := by
  simpa [maxLength] using (local_decode bs).2 _ h

/-- With its last bytes missing an instruction decodes to nothing yet. -/
theorem decode_truncated {bs ext : List Byte} {i : Instr} (h : decode (bs ++ ext) = .ok (i, [])) (he : ext ≠ []) :
    decode bs = .error .truncated := by
  rcases (local_decode bs).1 with h1 | h1
  · exact h1
  · rw [h1 ext] at h
    cases hb : decode bs with
    | error e => rw [hb] at h; cases h
    | ok d => rw [hb] at h; simp [Except.map] at h; exact absurd h.2.2 he

/-! ### The bytes and the state after them (R17) -/

@[simp] theorem State.codeBytes_zero (s : State) : s.codeBytes 0 = [] := rfl
@[simp] theorem State.fetched_zero (s : State) : s.fetched 0 = s := rfl
theorem State.codeBytes_succ (s : State) (n : Nat) : s.codeBytes (n + 1) = s.fetch8.1 :: s.fetch8.2.codeBytes n := rfl
theorem State.fetched_succ (s : State) (n : Nat) : s.fetched (n + 1) = s.fetch8.2.fetched n := rfl

@[simp] theorem State.length_codeBytes (n : Nat) (s : State) : (s.codeBytes n).length = n := by
  induction n generalizing s with
  | zero => rfl
  | succ n ih => simp [State.codeBytes_succ, ih]

theorem State.codeBytes_add (n k : Nat) (s : State) : s.codeBytes (n + k) = s.codeBytes n ++ (s.fetched n).codeBytes k := by
  induction n generalizing s with
  | zero => simp
  | succ n ih => rw [Nat.succ_add, State.codeBytes_succ, ih, State.codeBytes_succ, State.fetched_succ]; rfl

theorem State.fetched_add (n k : Nat) (s : State) : s.fetched (n + k) = (s.fetched n).fetched k := by
  induction n generalizing s with
  | zero => simp
  | succ n ih => rw [Nat.succ_add, State.fetched_succ, ih, State.fetched_succ]

/-- A state that fetches as another does: nothing that a fetch looks at differs. -/
def FetchesAs (s t : State) : Prop :=
  t.mem = s.mem ∧ t.memMap = s.memMap ∧ t.cga.vram = s.cga.vram ∧ t.devices = s.devices ∧ t.cs = s.cs ∧ t.ip = s.ip

theorem FetchesAs.fetch8 {s t : State} (h : FetchesAs s t) : t.fetch8.1 = s.fetch8.1 ∧ FetchesAs s.fetch8.2 t.fetch8.2 := by
  obtain ⟨h1, h2, h3, h4, h5, h6⟩ := h
  refine ⟨?_, h1, h2, h3, ?_, h5, ?_⟩
  · simp only [State.fetch8, h5, h6]
    exact State.read8_congr h1 h3 h2 fun _ => h4
  · simp [State.fetch8, State.afterRead8, State.note, State.setIp, h2, h4, h5, h6]
  · simp [State.fetch8, State.setIp, h6]

theorem FetchesAs.codeBytes {s t : State} (h : FetchesAs s t) (n : Nat) : t.codeBytes n = s.codeBytes n := by
  induction n generalizing s t with
  | zero => rfl
  | succ n ih => rw [State.codeBytes_succ, State.codeBytes_succ, h.fetch8.1, ih h.fetch8.2]

/-- What fetching changes: `IP`, and what has happened to the platform's devices (R17, R105). -/
theorem State.fetched_eq (n : Nat) (s : State) :
    s.fetched n = { s with
      ip := s.ip + BitVec.ofNat 16 n
      devices := ((List.range n).reverse.flatMap fun k => readEvents s.memMap (lin s.cs (s.ip + BitVec.ofNat 16 k))) ++
        s.devices } := by
  induction n generalizing s with
  | zero => simp
  | succ n ih =>
    rw [State.fetched_succ, ih]
    have hk : ∀ k, s.ip + 1 + BitVec.ofNat 16 k = s.ip + BitVec.ofNat 16 (k + 1) := fun k => by
      rw [BitVec.add_assoc, BitVec.add_comm 1, BitVec.ofNat_add]; rfl
    simp only [State.fetch8, State.afterRead8, State.note, State.setIp, hk, List.range_succ_eq_map, List.reverse_cons,
      List.flatMap_append, ← List.map_reverse, List.flatMap_map]
    simp

/-- Fetching an instruction: the bytes that are it, and the state past them (R17, R130). -/
theorem State.fetchInstr_eq {n k : Nat} {s : State} {bs : List Byte} {i : Instr}
    (h : decode (bs ++ s.codeBytes k) = .ok (i, [])) (hb : ∀ m < k, decode (bs ++ s.codeBytes m) = .error .truncated)
    (hk : 0 < k) (hn : k ≤ n) : State.fetchInstr n bs s = .ok (i, s.fetched k) := by
  induction k generalizing n s bs with
  | zero => omega
  | succ k ih =>
    obtain ⟨n, rfl⟩ : ∃ m, n = m + 1 := ⟨n - 1, by omega⟩
    rw [State.fetchInstr]
    rcases Nat.eq_zero_or_pos k with rfl | hk'
    · rw [show bs ++ [s.fetch8.1] = bs ++ s.codeBytes 1 from rfl, h]; rfl
    · rw [show bs ++ [s.fetch8.1] = bs ++ s.codeBytes 1 from rfl, hb 1 (by omega)]
      refine ih ?_ (fun m hm => ?_) hk' (by omega)
      · rw [State.codeBytes_succ] at h; simpa [State.codeBytes] using h
      · have := hb (m + 1) (by omega)
        rw [State.codeBytes_succ] at this; simpa [State.codeBytes] using this

/-- What is fetched where the coming bytes are an instruction (R17, R130). -/
theorem State.fetchInstr_of_decode {n : Nat} {s : State} {i : Instr} (h : decode (s.codeBytes n) = .ok (i, [])) :
    State.fetchInstr maxLength [] s = .ok (i, s.fetched n) := by
  refine State.fetchInstr_eq (by simpa using h) (fun m hm => ?_) ?_ (by simpa using length_of_decode h)
  · obtain ⟨d, rfl⟩ := Nat.exists_eq_add_of_lt hm
    rw [Nat.add_assoc, State.codeBytes_add] at h
    exact decode_truncated h (List.ne_nil_of_length_pos (by simp))
  · rcases n with _ | n
    · cases h
    · omega

end Sys2Proof.Machine
end

