-- ==== Sys2Proof/Laws/Flags.lean ====
section
/-! SUPPORT. What the flag functions of Machine/Flags.lean compute, in the integer terms of Sys2Proof/Safety.lean. -/

set_option Elab.async false

namespace Sys2Proof.Machine
/-- The number of elements a filter keeps, one element at a time. -/
theorem length_filter_cons (p : Nat → Bool) (a : Nat) (l : List Nat) :
    ((a :: l).filter p).length = (p a).toNat + (l.filter p).length := by
  rw [List.filter_cons]; cases p a <;> simp; omega

/-- `Parity` is 1 exactly when the low byte has an even number of one bits (R21). -/
theorem parity_eq {w : Nat} (res : BitVec w) : parity res = decide (lowOnes res % 2 = 0) := by
  simp only [parity, lowOnes, List.range, List.range.loop, length_filter_cons, List.filter_nil, List.length_nil]
  generalize res.getLsbD 0 = b0
  generalize res.getLsbD 1 = b1
  generalize res.getLsbD 2 = b2
  generalize res.getLsbD 3 = b3
  generalize res.getLsbD 4 = b4
  generalize res.getLsbD 5 = b5
  generalize res.getLsbD 6 = b6
  generalize res.getLsbD 7 = b7
  revert b0 b1 b2 b3 b4 b5 b6 b7
  decide

/-- `SetSZP_w` gives sign, zero and parity of the result (R21). -/
theorem resultFlags_setSZP {w : Nat} (f : Flags) (res : BitVec w) : ResultFlags (f.setSZP res) res := by
  refine ⟨BitVec.msb_eq_toInt, ?_, parity_eq res⟩
  simp only [Flags.setSZP]
  by_cases hz : res = 0#w
  · subst hz; simp
  · have : ¬ res.toNat = 0 := fun hh => hz (BitVec.eq_of_toNat_eq (by simpa using hh))
    simp [hz, this]

/-- The sum as a bit-vector sum with a carry bit. -/
theorem addResult_eq {w : Nat} (a b : BitVec w) (c : Bool) :
    addResult a b c = a + b + BitVec.setWidth w (BitVec.ofBool c) := by
  apply BitVec.eq_of_toNat_eq
  cases c <;> simp [addResult, BitVec.toNat_add, BitVec.toNat_ofNat]

/-- The difference as a sum with the complement and an inverted borrow bit. -/
theorem subResult_eq {w : Nat} (a b : BitVec w) (c : Bool) :
    subResult a b c = a + ~~~b + BitVec.setWidth w (BitVec.ofBool !c) := by
  have h1 : (1#w) = BitVec.setWidth w 1#1 := by
    apply BitVec.eq_of_toNat_eq; simp [BitVec.toNat_ofNat]
  rw [subResult, BitVec.sub_eq_add_neg a b, BitVec.neg_eq_not_add]
  cases c
  · simp [BitVec.add_assoc, h1]
  · simp [BitVec.sub_eq_add_neg, BitVec.add_assoc]

/-- Bit 4 of `a ^ b ^ (a + b + c)` is the carry out of the low four bits (R240). -/
theorem add_af {w : Nat} (h : 4 < w) (a b : BitVec w) (c : Bool) :
   (a ^^^ b ^^^ addResult a b c).getLsbD 4 = decide (15 < a.toNat % 16 + b.toNat % 16 + c.toNat) := by
  rw [BitVec.getLsbD_xor, BitVec.getLsbD_xor, addResult_eq, BitVec.getLsbD_add_add_bool h]
  have : BitVec.carry 4 a b c = decide (15 < a.toNat % 16 + b.toNat % 16 + c.toNat) := by
    simp [BitVec.carry]; omega
  rw [← this]
  cases a.getLsbD 4 <;> cases b.getLsbD 4 <;> simp

/-- The low nibble of a complement. -/
theorem toNat_not_mod16 {w : Nat} (h : 4 < w) (b : BitVec w) : (~~~b).toNat % 16 = 15 - b.toNat % 16 := by
  have hb := b.isLt
  rw [BitVec.toNat_not]
  obtain ⟨k, rfl⟩ : ∃ k, w = k + 4 := ⟨w - 4, by omega⟩
  rw [Nat.pow_add] at *
  omega

/-- Bit 4 of `a ^ b ^ (a - b - c)` is the borrow into the low four bits (R241). -/
theorem sub_af {w : Nat} (h : 4 < w) (a b : BitVec w) (c : Bool) :
   (a ^^^ b ^^^ subResult a b c).getLsbD 4 = decide (a.toNat % 16 < b.toNat % 16 + c.toNat) := by
  have hc : BitVec.carry 4 a (~~~b) (!c) = !decide (a.toNat % 16 < b.toNat % 16 + c.toNat) := by
    have h2 := toNat_not_mod16 h b
    simp only [BitVec.carry, Nat.reducePow, h2, ← decide_not, decide_eq_decide]
    cases c <;> simp <;> omega
  rw [BitVec.getLsbD_xor, BitVec.getLsbD_xor, subResult_eq, BitVec.getLsbD_add_add_bool h, BitVec.getLsbD_not, hc]
  generalize decide (a.toNat % 16 < b.toNat % 16 + c.toNat) = d
  simp only [h, decide_true, Bool.true_and]
  cases a.getLsbD 4 <;> cases b.getLsbD 4 <;> cases d <;> rfl

/-- A power of two is twice the one before it, which is positive. -/
theorem pow_half {w : Nat} (h : 0 < w) : (2:Int) ^ w = 2 * 2 ^ (w - 1) ∧ 0 < (2:Int) ^ (w - 1) := by
  refine ⟨?_, Int.pow_pos (by decide)⟩
  rw [← Int.pow_succ', Nat.sub_add_cancel h]

/-- An integer that is out of the signed range by less than 2^w wraps by exactly 2^w. -/
theorem toInt_wrap {w : Nat} (h : 0 < w) (n : Int) (h1 : -(2 ^ w : Int) - 2^(w-1) ≤ n) (h2 : n < 2 ^ w + 2^(w-1)) :
    (BitVec.ofInt w n).toInt = if n < -2 ^ (w - 1) then n + 2 ^ w else if 2 ^ (w - 1) ≤ n then n - 2 ^ w else n := by
  rw [BitVec.toInt_ofInt]
  have ⟨e, hM⟩ := pow_half h
  have e2 : (((2:Nat)^w : Nat) : Int) = 2 * 2^(w-1) := by push_cast; exact e
  have key : ∀ k : Int, -2 ^ (w - 1) ≤ n + k * (2 * 2^(w-1)) →
      n + k * (2 * 2^(w-1)) < 2 ^ (w - 1) → n.bmod (2 ^ w) = n + k * (2 * 2^(w-1)) := by
    intro k hk1 hk2
    have : (n + k * (2 * 2^(w-1))).bmod (2^w) = n.bmod (2^w) := by
      rw [← e2, mul_comm]; exact Int.add_mul_bmod_self_left ..
    rw [← this]
    apply Int.bmod_eq_of_le <;> rw [e2] <;> omega
  simp only [e] at *
  split
  · rw [key 1] <;> omega
  · split
    · rw [key (-1)] <;> omega
    · rw [key 0] <;> omega

/-- Two operands of one sign give a result of the other sign exactly when the exact result is out of range. -/
theorem overflow_eq {w : Nat} (hw : 0 < w) (a b : BitVec w) (n : Int) (h1 : -(2 ^ w : Int) ≤ n) (h2 : n < 2 ^ w)
    (hs : a.msb = b.msb → (a.msb = true ↔ n < 0)) (hd : a.msb ≠ b.msb → -2^(w-1) ≤ n ∧ n < 2^(w-1)) :
    ((a ^^^ BitVec.ofInt w n) &&& (b ^^^ BitVec.ofInt w n)).msb = OutOfRange w n := by
  have ⟨e, hM⟩ := pow_half hw
  have ht := toInt_wrap hw n (by omega) (by omega)
  rw [BitVec.msb_and, BitVec.msb_xor, BitVec.msb_xor, BitVec.msb_eq_toInt (x := BitVec.ofInt w n), ht, OutOfRange]
  clear ht
  simp only [e] at *
  generalize (2:Int)^(w-1) = M at *
  generalize a.msb = x at *
  generalize b.msb = y at *
  by_cases c1 : n < -M
  · have c2 : ¬ M ≤ n := by omega
    have c3 : ¬ n + 2 * M < 0 := by omega
    simp only [c1, if_true, c3, decide_false, decide_true, Bool.true_or, Bool.xor_false]
    cases x <;> cases y <;> simp at * <;> omega
  · by_cases c2 : M ≤ n
    · have c3 : n - 2 * M < 0 := by omega
      simp only [c1, c2, if_true, if_false, c3, decide_false, decide_true, Bool.or_true, Bool.xor_true]
      cases x <;> cases y <;> simp at * <;> omega
    · simp only [c1, c2, if_false, decide_false, Bool.or_false]
      by_cases c3 : n < 0 <;> simp only [c3, decide_true, decide_false] at * <;> cases x <;> cases y <;> simp at *

/-- The sum is the exact signed sum wrapped. -/
theorem addResult_ofInt {w : Nat} (a b : BitVec w) (c : Bool) :
    addResult a b c = BitVec.ofInt w (a.toInt + b.toInt + c.toNat) := by
  rw [BitVec.ofInt_add, BitVec.ofInt_add, BitVec.ofInt_toInt, BitVec.ofInt_toInt, addResult_eq]
  congr 1
  cases c <;> apply BitVec.eq_of_toNat_eq <;> simp [BitVec.toNat_ofNat]

/-- The difference is the exact signed difference wrapped. -/
theorem subResult_ofInt {w : Nat} (a b : BitVec w) (c : Bool) :
    subResult a b c = BitVec.ofInt w (a.toInt - b.toInt - c.toNat) := by
  rw [subResult, Int.sub_eq_add_neg, Int.sub_eq_add_neg, BitVec.ofInt_add, BitVec.ofInt_add, BitVec.ofInt_neg,
    BitVec.ofInt_neg, BitVec.ofInt_toInt, BitVec.ofInt_toInt,
    BitVec.sub_eq_add_neg, BitVec.sub_eq_add_neg, BitVec.ofInt_natCast]

/-- The sign bit bounds the signed value. -/
theorem msb_range {w : Nat} (a : BitVec w) :
    (a.msb = true → -(2:Int)^(w-1) ≤ a.toInt ∧ a.toInt < 0) ∧ (a.msb = false → 0 ≤ a.toInt ∧ a.toInt < 2^(w-1)) := by
  have h1 := BitVec.le_toInt a
  have h2 : a.toInt < 2^(w-1) := BitVec.toInt_lt
  have h3 := BitVec.msb_eq_toInt (x := a)
  cases hm : a.msb <;> simp_all

/-- All six status flags of an addition are those of the exact sum (R240). -/
theorem afterAdd_outcome {w : Nat} (hw : 4 < w) (f : Flags) (a b : BitVec w) (c : Bool) :
    AddOutcome f (f.afterAdd a b c) a b c (addResult a b c) := by
  have ⟨e, hM⟩ := pow_half (show 0 < w by omega)
  have hc : c.toNat ≤ 1 := by cases c <;> simp
  refine ⟨by simp [addResult], rfl, add_af hw a b c, ?_, resultFlags_setSZP f _, rfl, rfl, rfl⟩
  simp only [Flags.afterAdd]
  rw [addResult_ofInt]
  have ⟨ha, ha'⟩ := msb_range a
  have ⟨hb, hb'⟩ := msb_range b
  rw [overflow_eq (by omega)]
  all_goals (cases h1 : a.msb <;> cases h2 : b.msb <;>
      simp only [h1, h2, true_implies, reduceCtorEq, false_implies] at ha ha' hb hb')
  all_goals (try simp)
  all_goals omega

/-- All six status flags of a subtraction are those of the exact difference (R241). -/
theorem afterSub_outcome {w : Nat} (hw : 4 < w) (f : Flags) (a b : BitVec w) (c : Bool) :
    SubOutcome f (f.afterSub a b c) a b c (subResult a b c) := by
  have ⟨e, hM⟩ := pow_half (show 0 < w by omega)
  have hc : c.toNat ≤ 1 := by cases c <;> simp
  refine ⟨?_, rfl, sub_af hw a b c, ?_, resultFlags_setSZP f _, rfl, rfl, rfl⟩
  · have : subResult a b c = BitVec.ofInt w ((a.toNat : Int) - b.toNat - c.toNat) := by
      rw [subResult, Int.sub_eq_add_neg, Int.sub_eq_add_neg, BitVec.ofInt_add, BitVec.ofInt_add, BitVec.ofInt_neg,
        BitVec.ofInt_neg, BitVec.ofInt_natCast, BitVec.ofInt_natCast, BitVec.ofInt_natCast, BitVec.ofNat_toNat,
        BitVec.ofNat_toNat, BitVec.sub_eq_add_neg, BitVec.sub_eq_add_neg, BitVec.setWidth_eq, BitVec.setWidth_eq]
    rw [this, BitVec.toNat_ofInt]
    push_cast
    rw [Int.toNat_of_nonneg (Int.emod_nonneg _ (by omega))]
  · have hx : ((a ^^^ b) &&& (a ^^^ subResult a b c)).msb =
        ((a ^^^ subResult a b c) &&& (~~~b ^^^ subResult a b c)).msb := by
      simp only [BitVec.msb_and, BitVec.msb_xor, BitVec.msb_not, show decide (0 < w) = true by simp; omega]
      cases a.msb <;> cases b.msb <;> cases (subResult a b c).msb <;> rfl
    simp only [Flags.afterSub]
    rw [hx, subResult_ofInt]
    have ⟨ha, ha'⟩ := msb_range a
    have ⟨hb, hb'⟩ := msb_range b
    have hn : (~~~b).msb = !b.msb := by simp [BitVec.msb_not]; omega
    rw [overflow_eq (by omega)]
    all_goals (try rw [hn])
    all_goals (cases h1 : a.msb <;> cases h2 : b.msb <;>
      simp only [h1, h2, true_implies, reduceCtorEq, false_implies] at ha ha' hb hb')
    all_goals (try simp)
    all_goals omega

/-- The flags of a logical result (R280). -/
theorem afterLogic_outcome {w : Nat} (f : Flags) (res : BitVec w) (u : Word) :
    LogicOutcome f (f.afterLogic res u) res :=
  ⟨rfl, rfl, resultFlags_setSZP f res, rfl, rfl, rfl⟩
end Sys2Proof.Machine
end

