-- ==== Sys2Proof/Laws/Kept.lean ====
section
/-! SUPPORT. What every instruction keeps, said once: a property of states that the primitive operations keep, the writes
of registers, flags and prefixes and the byte operations of the buses, is kept by every instruction. -/

set_option Elab.async false

namespace Sys2Proof.Machine

/-- A property that every primitive operation of an instruction keeps. -/
structure Kept (C : State → Prop) : Prop where
  regs : ∀ {s} (v : Regs), C s → C { s with regs := v }
  cs : ∀ {s} (v : Word), C s → C { s with cs := v }
  ds : ∀ {s} (v : Word), C s → C { s with ds := v }
  es : ∀ {s} (v : Word), C s → C { s with es := v }
  ss : ∀ {s} (v : Word), C s → C { s with ss := v }
  ip : ∀ {s} (v : Word), C s → C { s with ip := v }
  flags : ∀ {s} (v : Flags), C s → C { s with flags := v }
  pend : ∀ {s} (v : Pending), C s → C { s with pend := v }
  draws : ∀ {s} (v : Nat), C s → C { s with draws := v }
  halt : ∀ {s}, C s → C { s with halt := true }
  ended : ∀ {s}, C s → C { s with ended := true }
  note : ∀ {s} (es : List DeviceEvent), C s → C (s.note es)
  write8 : ∀ {s} (a : Addr) (v : Byte), C s → C (s.write8 a v)
  portIn8 : ∀ {s} (p : Word), C s → C (s.portIn8 p).2
  portOut8 : ∀ {s} (p : Word) (v : Byte), C s → C (s.portOut8 p v)

namespace Kept

variable {C : State → Prop} (h : Kept C) {s : State}

include h

/-! ### The shared operations (Machine/Ops.lean, Machine/Operands.lean) -/

theorem set16 (r : Reg16) (v : Word) (hs : C s) : C (s.set16 r v) := h.regs _ hs
theorem set8 (r : Reg8) (v : Byte) (hs : C s) : C (s.set8 r v) := h.regs _ hs
theorem setSp (v : Word) (hs : C s) : C (s.setSp v) := h.regs _ hs
theorem setIp (v : Word) (hs : C s) : C (s.setIp v) := h.ip _ hs
theorem setCs (v : Word) (hs : C s) : C (s.setCs v) := h.cs _ hs
theorem setFlags (f : Flags) (hs : C s) : C (s.setFlags f) := h.flags _ hs
theorem drew (b : Bool) (hs : C s) : C (s.drew b) := h.draws _ hs

theorem setS (r : SReg) (v : Word) (hs : C s) : C (s.setS r v) := by
  cases r
  exacts [h.es _ hs, h.cs _ hs, h.ss _ hs, h.ds _ hs]

theorem write16 (a : Addr) (v : Word) (hs : C s) : C (s.write16 a v) := h.write8 _ _ (h.write8 _ _ hs)

theorem portIn16 (p : Word) (hs : C s) : C (s.portIn16 p).2 := h.portIn8 _ (h.portIn8 _ hs)

theorem portOut16 (p v : Word) (hs : C s) : C (s.portOut16 p v) := h.portOut8 _ _ (h.portOut8 _ _ hs)

theorem push16 (v : Word) (hs : C s) : C (s.push16 v) := h.write16 _ _ (h.setSp _ hs)

theorem drop16 (hs : C s) : C s.drop16 := h.setSp _ (h.note _ hs)

theorem interrupt (n : Byte) (hs : C s) : C (s.interrupt n) :=
  h.setCs _ (h.setIp _ (h.note _ (h.note _ (h.push16 _ (h.push16 _ (h.setFlags _ (h.push16 _ hs)))))))

theorem interruptReturn (hs : C s) : C s.interruptReturn :=
  h.setFlags _ (h.drop16 (h.setCs _ (h.drop16 (h.setIp _ (h.drop16 hs)))))

theorem hostWrite (w : HostWrite) (hs : C s) : C (s.hostWrite w) := by
  cases w with
  | reg r v => exact h.set16 _ _ hs
  | seg r v => exact h.setS _ _ hs
  | ip v => exact h.ip _ hs
  | flags f => exact h.flags _ hs
  | mem a v => exact h.write8 _ _ hs

theorem hostWrites (ws : List HostWrite) (hs : C s) : C (s.hostWrites ws) := by
  induction ws generalizing s with
  | nil => exact hs
  | cons w ws ih => exact ih (h.hostWrite w hs)

theorem runHook (n : Byte) (hs : C s) : C (s.runHook n) := by
  unfold State.runHook
  generalize hookHandler n s = ws
  exact h.flags (s := { s.hostWrites ws with cs := s.cs, ip := s.ip }) _
    (h.ip (s := { s.hostWrites ws with cs := s.cs }) _ (h.cs (s := s.hostWrites ws) _ (h.hostWrites ws hs)))

theorem store8 (p : Place Reg8) (v : Byte) (hs : C s) : C (s.store8 p v) := by
  cases p
  exacts [h.set8 _ _ hs, h.write8 _ _ hs]

theorem store16 (p : Place Reg16) (v : Word) (hs : C s) : C (s.store16 p v) := by
  cases p
  exacts [h.set16 _ _ hs, h.write16 _ _ hs]

theorem setRm8 (rm : RM Reg8) (v : Byte) (hs : C s) : C (s.setRm8 rm v) := h.store8 _ _ hs
theorem setRm16 (rm : RM Reg16) (v : Word) (hs : C s) : C (s.setRm16 rm v) := h.store16 _ _ hs
theorem afterRead8 (a : Addr) (hs : C s) : C (s.afterRead8 a) := h.note _ hs
theorem afterRead16 (a : Addr) (hs : C s) : C (s.afterRead16 a) := h.note _ hs
theorem afterLoad16 (p : Place Reg16) (hs : C s) : C (s.afterLoad16 p) := h.note _ hs
theorem afterRm8 (rm : RM Reg8) (hs : C s) : C (s.afterRm8 rm) := h.note _ hs
theorem afterRm16 (rm : RM Reg16) (hs : C s) : C (s.afterRm16 rm) := h.note _ hs
theorem afterFar (m : Mem) (hs : C s) : C (s.afterFar m) := h.note _ (h.note _ hs)
theorem jumpBy (d : Word) (hs : C s) : C (s.jumpBy d) := h.ip _ hs

theorem jumpIf (c : Bool) (rel : Byte) (hs : C s) : C (s.jumpIf c rel) := by
  unfold State.jumpIf
  split
  exacts [h.jumpBy _ hs, hs]

theorem aluFlags {w : Nat} (op : AluOp) (a b : BitVec w) (hs : C s) : C (s.aluFlags op a b) :=
  h.drew _ (h.setFlags _ hs)

theorem alu8 (op : AluOp) (p : Place Reg8) (a b : Byte) (hs : C s) : C (s.alu8 op p a b) := by
  unfold State.alu8
  split
  exacts [h.store8 _ _ (h.aluFlags _ _ _ hs), h.aluFlags _ _ _ hs]

theorem alu16 (op : AluOp) (p : Place Reg16) (a b : Word) (hs : C s) : C (s.alu16 op p a b) := by
  unfold State.alu16
  split
  exacts [h.store16 _ _ (h.aluFlags _ _ _ hs), h.aluFlags _ _ _ hs]

theorem aluRm8R8 (op : AluOp) (rm : RM Reg8) (r : Reg8) (hs : C s) : C (s.aluRm8R8 op rm r) :=
  h.alu8 _ _ _ _ (h.afterRm8 rm hs)
theorem aluRm16R16 (op : AluOp) (rm : RM Reg16) (r : Reg16) (hs : C s) : C (s.aluRm16R16 op rm r) :=
  h.alu16 _ _ _ _ (h.afterRm16 rm hs)
theorem aluR8Rm8 (op : AluOp) (r : Reg8) (rm : RM Reg8) (hs : C s) : C (s.aluR8Rm8 op r rm) :=
  h.alu8 _ _ _ _ (h.afterRm8 rm hs)
theorem aluR16Rm16 (op : AluOp) (r : Reg16) (rm : RM Reg16) (hs : C s) : C (s.aluR16Rm16 op r rm) :=
  h.alu16 _ _ _ _ (h.afterRm16 rm hs)
theorem aluAlImm8 (op : AluOp) (v : Byte) (hs : C s) : C (s.aluAlImm8 op v) := h.alu8 _ _ _ _ hs
theorem aluAxImm16 (op : AluOp) (v : Word) (hs : C s) : C (s.aluAxImm16 op v) := h.alu16 _ _ _ _ hs
theorem aluRm8Imm8 (op : AluOp) (rm : RM Reg8) (v : Byte) (hs : C s) : C (s.aluRm8Imm8 op rm v) :=
  h.alu8 _ _ _ _ (h.afterRm8 rm hs)
theorem aluRm16Imm16 (op : AluOp) (rm : RM Reg16) (v : Word) (hs : C s) : C (s.aluRm16Imm16 op rm v) :=
  h.alu16 _ _ _ _ (h.afterRm16 rm hs)

theorem shift8 (op : ShiftOp) (rm : RM Reg8) (n : Nat) (hs : C s) : C (s.shift8 op rm n) :=
  h.store8 _ _ (h.drew _ (h.setFlags _ (h.afterRm8 rm hs)))

theorem shift16 (op : ShiftOp) (rm : RM Reg16) (n : Nat) (hs : C s) : C (s.shift16 op rm n) :=
  h.store16 _ _ (h.drew _ (h.setFlags _ (h.afterRm16 rm hs)))

/-! ### The shared parts of the families -/

theorem flagsDrew (f : Flags) (hs : C s) : C ((s.setFlags f).drew true) := h.drew _ (h.setFlags _ hs)
theorem test {w : Nat} (a b : BitVec w) (hs : C s) : C (s.test a b) := h.flagsDrew _ hs
theorem inc16 (p : Place Reg16) (hs : C s) : C (s.inc16 p) := h.store16 _ _ (h.setFlags _ (h.afterLoad16 p hs))
theorem dec16 (p : Place Reg16) (hs : C s) : C (s.dec16 p) := h.store16 _ _ (h.setFlags _ (h.afterLoad16 p hs))
theorem product16 (p : Word) (b : Bool) (hs : C s) : C (s.product16 p b) := h.flagsDrew _ (h.set16 _ _ hs)
theorem product32 (p : BitVec 32) (b : Bool) (hs : C s) : C (s.product32 p b) :=
  h.flagsDrew _ (h.set16 _ _ (h.set16 _ _ hs))
theorem quotient8 (q r : Byte) (hs : C s) : C (s.quotient8 q r) := h.flagsDrew _ (h.set16 _ _ hs)
theorem quotient16 (q r : Word) (hs : C s) : C (s.quotient16 q r) := h.flagsDrew _ (h.set16 _ _ (h.set16 _ _ hs))
theorem divideError (hs : C s) : C s.divideError := h.interrupt 0 hs

theorem div8 (d : Byte) (hs : C s) : C (s.div8 d) := by
  unfold State.div8
  split
  · exact h.divideError hs
  split
  exacts [h.divideError hs, h.quotient8 _ _ hs]

theorem div16 (d : Word) (hs : C s) : C (s.div16 d) := by
  unfold State.div16
  split
  · exact h.divideError hs
  split
  exacts [h.divideError hs, h.quotient16 _ _ hs]

theorem idiv8 (d : Byte) (hs : C s) : C (s.idiv8 d) := by
  unfold State.idiv8
  split
  · exact h.divideError hs
  split
  exacts [h.divideError hs, h.quotient8 _ _ hs]

theorem idiv16 (d : Word) (hs : C s) : C (s.idiv16 d) := by
  unfold State.idiv16
  split
  · exact h.divideError hs
  split
  exacts [h.divideError hs, h.quotient16 _ _ hs]

theorem asciiAdjust (d e : Byte) (hs : C s) : C (s.asciiAdjust d e) := h.flagsDrew _ (h.set16 _ _ hs)
theorem decimalAdjust (d e : Byte) (c : Bool) (hs : C s) : C (s.decimalAdjust d e c) := h.flagsDrew _ (h.set8 _ _ hs)
theorem asciiMul (l m : Byte) (hs : C s) : C (s.asciiMul l m) := h.flagsDrew _ (h.set16 _ _ hs)

theorem aam (b : Byte) (hs : C s) : C (s.aam b) := by
  unfold State.aam
  split
  exacts [h.divideError hs, h.asciiMul _ _ hs]

theorem xchgAx (r : Reg16) (hs : C s) : C (s.xchgAx r) := h.set16 _ _ (h.set16 _ _ hs)
theorem inAl (p : Word) (hs : C s) : C (s.inAl p) := h.set8 _ _ (h.portIn8 _ hs)
theorem inAx (p : Word) (hs : C s) : C (s.inAx p) := h.set16 _ _ (h.portIn16 _ hs)
theorem jumpFar (o g : Word) (hs : C s) : C (s.jumpFar o g) := h.setCs _ (h.setIp _ hs)
theorem callNear (d : Word) (hs : C s) : C (s.callNear d) := h.setIp _ (h.push16 _ hs)
theorem callFar (o g : Word) (hs : C s) : C (s.callFar o g) := h.jumpFar _ _ (h.push16 _ (h.push16 _ hs))
theorem retNear (n : Word) (hs : C s) : C (s.retNear n) := h.setSp _ (h.setIp _ (h.drop16 hs))
theorem retFar (n : Word) (hs : C s) : C (s.retFar n) := h.setSp _ (h.setCs _ (h.drop16 (h.setIp _ (h.drop16 hs))))
theorem loopBy (c : Bool) (rel : Byte) (hs : C s) : C (s.loopBy c rel) := h.jumpIf _ _ (h.set16 _ _ hs)
theorem override (r : SReg) (hs : C s) : C (s.override r) := h.pend _ hs
theorem repeatPrefix (r : Rep) (hs : C s) : C (s.repeatPrefix r) := h.pend _ hs
theorem lockPrefix (hs : C s) : C { s with pend := { s.pend with lock := true } } := h.pend _ hs

theorem softInterrupt (n : Byte) (hs : C s) : C (s.softInterrupt n) := by
  unfold State.softInterrupt
  split
  exacts [h.runHook _ hs, h.interrupt _ hs]

theorem into (hs : C s) : C (if s.flags.ofl then s.interrupt 4 else s) := by
  split
  exacts [h.interrupt _ hs, hs]

theorem haltNow (hs : C s) : C s.haltNow := by
  unfold State.haltNow
  split
  exacts [h.halt hs, h.ended hs]

theorem stepSi (n : Word) (hs : C s) : C (s.stepSi n) := h.set16 _ _ hs
theorem stepDi (n : Word) (hs : C s) : C (s.stepDi n) := h.set16 _ _ hs
theorem compare {w : Nat} (a b : BitVec w) (hs : C s) : C (s.compare a b) := h.setFlags _ hs

theorem afterIteration (m : Bool) (hs : C s) : C (s.afterIteration m) := by
  unfold State.afterIteration
  simp only
  split
  exacts [h.setIp _ (h.set16 _ _ hs), h.set16 _ _ hs]

theorem repeated {once : State → State} (ho : ∀ {s}, C s → C (once s)) (hs : C s) : C (s.repeated once) := by
  unfold State.repeated
  split
  · exact ho hs
  split
  exacts [hs, h.afterIteration _ (ho hs)]

theorem repeatedCompare {once : State → State} (ho : ∀ {s}, C s → C (once s)) (hs : C s) :
    C (s.repeatedCompare once) := by
  unfold State.repeatedCompare
  split
  · exact ho hs
  split
  exacts [hs, h.afterIteration _ (ho hs)]

theorem movsb (hs : C s) : C (s.repeated State.movsb1) :=
  h.repeated (fun hs => h.stepDi _ (h.stepSi _ (h.write8 _ _ (h.afterRead8 _ hs)))) hs
theorem movsw (hs : C s) : C (s.repeated State.movsw1) :=
  h.repeated (fun hs => h.stepDi _ (h.stepSi _ (h.write16 _ _ (h.afterRead16 _ hs)))) hs
theorem cmpsb (hs : C s) : C (s.repeatedCompare State.cmpsb1) :=
  h.repeatedCompare (fun hs => h.stepDi _ (h.stepSi _ (h.compare _ _ (h.afterRead8 _ (h.afterRead8 _ hs))))) hs
theorem cmpsw (hs : C s) : C (s.repeatedCompare State.cmpsw1) :=
  h.repeatedCompare (fun hs => h.stepDi _ (h.stepSi _ (h.compare _ _ (h.afterRead16 _ (h.afterRead16 _ hs))))) hs
theorem scasb (hs : C s) : C (s.repeatedCompare State.scasb1) :=
  h.repeatedCompare (fun hs => h.stepDi _ (h.compare _ _ (h.afterRead8 _ hs))) hs
theorem scasw (hs : C s) : C (s.repeatedCompare State.scasw1) :=
  h.repeatedCompare (fun hs => h.stepDi _ (h.compare _ _ (h.afterRead16 _ hs))) hs
theorem lodsb (hs : C s) : C (s.repeated State.lodsb1) :=
  h.repeated (fun hs => h.stepSi _ (h.set8 _ _ (h.afterRead8 _ hs))) hs
theorem lodsw (hs : C s) : C (s.repeated State.lodsw1) :=
  h.repeated (fun hs => h.stepSi _ (h.set16 _ _ (h.afterRead16 _ hs))) hs
theorem stosb (hs : C s) : C (s.repeated State.stosb1) := h.repeated (fun hs => h.stepDi _ (h.write8 _ _ hs)) hs
theorem stosw (hs : C s) : C (s.repeated State.stosw1) := h.repeated (fun hs => h.stepDi _ (h.write16 _ _ hs)) hs

/-! ### Every instruction -/

/-- An instruction keeps what the primitive operations keep. -/
theorem exec (i : Instr) {t : State} (hs : C s) (he : Machine.exec i s = .next t) : C t := by
  cases i <;> cases he <;>
    first
    | simp only [h.set16, h.set8, h.setS, h.setFlags, h.setIp, h.write8, h.write16, h.push16, h.drop16, h.store16,
        h.setRm8, h.setRm16, h.afterRead8, h.afterRead16, h.afterRm8, h.afterRm16, h.afterFar, h.jumpBy, h.jumpIf,
        h.aluRm8R8, h.aluRm16R16, h.aluR8Rm8, h.aluR16Rm16, h.aluAlImm8, h.aluAxImm16, h.aluRm8Imm8, h.aluRm16Imm16,
        h.shift8, h.shift16, h.test, h.inc16, h.dec16, h.product16, h.product32, h.div8, h.div16, h.idiv8, h.idiv16,
        h.asciiAdjust, h.decimalAdjust, h.asciiMul, h.aam, h.xchgAx, h.inAl, h.inAx, h.portOut8, h.portOut16,
        h.jumpFar, h.callNear, h.callFar, h.retNear, h.retFar, h.loopBy, h.override, h.repeatPrefix, h.lockPrefix,
        h.softInterrupt, h.interrupt, h.interruptReturn, h.into, h.haltNow, h.movsb, h.movsw, h.cmpsb, h.cmpsw,
        h.scasb, h.scasw, h.lodsb, h.lodsw, h.stosb, h.stosw, hs]
    | exact h.store8 _ _ (h.setFlags _ (h.afterRm8 _ hs))
    | exact h.store16 _ _ (h.setFlags _ (h.afterRm16 _ hs))
    | exact h.set8 _ _ (h.setRm8 _ _ (h.afterRm8 _ hs))
    | exact h.set16 _ _ (h.setRm16 _ _ (h.afterRm16 _ hs))
    | exact h.setS _ _ (h.set16 _ _ (h.afterFar _ hs))

/-- So does fetching one (R17). -/
theorem fetchInstr {n : Nat} {bs : List Byte} {i : Instr} {t : State} (hs : C s)
    (he : State.fetchInstr n bs s = .ok (i, t)) : C t := by
  induction n generalizing bs s with
  | zero => cases he
  | succ n ih =>
    have hf : C s.fetch8.2 := h.setIp _ (h.afterRead8 _ hs)
    unfold State.fetchInstr at he
    split at he
    · cases he; exact hf
    · exact ih hf he
    · cases he
    · cases he

/-- So does an instruction with its prefixes (R132). -/
theorem runInstr {n : Nat} {t : State} (hs : C s) (he : State.runInstr n s = .next t) : C t := by
  induction n generalizing s with
  | zero => cases he
  | succ n ih =>
    unfold State.runInstr at he
    split at he
    · cases he
    · rename_i i u hf
      have hu : C u := h.fetchInstr hs hf
      split at he
      · split at he
        · rename_i v hv; exact ih (h.exec i hu hv) he
        · cases he
        · cases he
      · exact h.exec i hu he

/-- So does the end of an instruction, when waking up does (R400 item 7, R412). -/
theorem finished (hw : ∀ {s}, C s → C { s with halt := false }) (tf : Bool) (hs : C s) : C (s.finished tf) := by
  unfold State.finished
  simp only
  split
  exacts [hw (h.interrupt _ (h.pend _ hs)), h.pend _ hs]

/-- So does the whole step of the processor, when acknowledging a request does too (R400). -/
theorem procStep {t : State} (hp : ∀ {s} (p : Pic), C s → C { s with pic := p })
    (hw : ∀ {s}, C s → C { s with halt := false }) (hs : C s) (he : s.procStep = .next t) : C t := by
  have hi : C s.interruptCheck := by
    unfold State.interruptCheck
    split
    · split
      exacts [hs, hw (h.interrupt _ (hp _ hs))]
    · exact hs
  unfold State.procStep at he
  split at he
  · cases he
  split at he
  · cases he
  split at he
  · cases he
  unfold State.instrPhase at he
  split at he
  · cases he; exact hi
  split at he
  · rename_i v hv
    cases he
    exact h.finished hw _ (h.runInstr (h.pend _ hi) hv)
  · cases he
  · cases he

end Kept

/-! ### What the whole machine keeps -/

/-- What no instruction changes: the bus tables, the hook table, the host's clock and turns, and `Debug`; and what has
happened to the platform's devices is only added to. -/
def HostSame (s t : State) : Prop :=
  t.memMap = s.memMap ∧ t.ioMap = s.ioMap ∧ t.hooks = s.hooks ∧ t.now = s.now ∧ t.debug = s.debug ∧
    t.inputs = s.inputs ∧ t.turns = s.turns ∧ t.timeWait = s.timeWait ∧ HistoryGrows s t

theorem HostSame.refl (s : State) : HostSame s s := ⟨rfl, rfl, rfl, rfl, rfl, rfl, rfl, rfl, HistoryGrows.refl s⟩

theorem kept_hostSame (s : State) : Kept (HostSame s) where
  regs _ h := h
  cs _ h := h
  ds _ h := h
  es _ h := h
  ss _ h := h
  ip _ h := h
  flags _ h := h
  pend _ h := h
  draws _ h := h
  halt h := h
  ended h := h
  note es h := ⟨h.1, h.2.1, h.2.2.1, h.2.2.2.1, h.2.2.2.2.1, h.2.2.2.2.2.1, h.2.2.2.2.2.2.1, h.2.2.2.2.2.2.2.1,
    h.2.2.2.2.2.2.2.2.trans (historyGrows_note _ es)⟩
  write8 a v h := by
    obtain ⟨h1, h2, h3, h4, h5, h6, h7, h8, h9⟩ := h
    refine ⟨?_, ?_, ?_, ?_, ?_, ?_, ?_, ?_, h9.trans (historyGrows_write8 _ a v)⟩ <;>
      unfold State.write8 <;> split <;> assumption
  portIn8 p h := by
    obtain ⟨h1, h2, h3, h4, h5, h6, h7, h8, h9⟩ := h
    unfold State.portIn8
    split
    · exact ⟨h1, h2, h3, h4, h5, h6, h7, h8, h9⟩
    · exact ⟨h1, h2, h3, h4, h5, h6, h7, h8, h9⟩
    · exact ⟨h1, h2, h3, h4, h5, h6, h7, h8, h9.trans (historyGrows_note _ _)⟩
    · exact ⟨h1, h2, h3, h4, h5, h6, h7, h8, h9⟩
  portOut8 p v h := by
    obtain ⟨h1, h2, h3, h4, h5, h6, h7, h8, h9⟩ := h
    unfold State.portOut8
    split
    · exact ⟨h1, h2, h3, h4, h5, h6, h7, h8, h9⟩
    · exact ⟨h1, h2, h3, h4, h5, h6, h7, h8, h9⟩
    · exact ⟨h1, h2, h3, h4, h5, h6, h7, h8, h9.trans (historyGrows_note _ _)⟩
    · exact ⟨h1, h2, h3, h4, h5, h6, h7, h8, h9⟩

theorem kept_deviceSound : Kept DeviceSound where
  regs _ h := h
  cs _ h := h
  ds _ h := h
  es _ h := h
  ss _ h := h
  ip _ h := h
  flags _ h := h
  pend _ h := h
  draws _ h := h
  halt h := h
  ended h := h
  note es h := h.note es
  write8 a v h := h.write8 a v
  portIn8 p h := h.portIn8 p
  portOut8 p v h := h.portOut8 p v

/-- The render task's clock has not gone back: it has ticked since, or its wait is no longer than it was (R480). -/
def TickProgress (c d : Cga) : Prop := c.ticks < d.ticks ∨ (d.ticks = c.ticks ∧ d.tickWait ≤ c.tickWait)

theorem TickProgress.refl (c : Cga) : TickProgress c c := .inr ⟨rfl, Nat.le_refl _⟩

theorem TickProgress.moment {c d : Cga} (h : TickProgress c d) : TickProgress c d.moment := by
  rcases Cga.moment_progress d with ht | ⟨ht, hw⟩ <;> unfold TickProgress at * <;> omega

theorem TickProgress.congr {c d e : Cga} (h : TickProgress c d) (ht : e.ticks = d.ticks) (hw : e.tickWait = d.tickWait) :
    TickProgress c e := by
  unfold TickProgress at *; omega

theorem Cga.portIn_clock (c : Cga) (p : Word) : (c.portIn p).2.ticks = c.ticks ∧ (c.portIn p).2.tickWait = c.tickWait := by
  unfold Cga.portIn; split <;> exact ⟨rfl, rfl⟩

theorem Cga.writeCrt_clock (c : Cga) (v : Byte) : (c.writeCrt v).ticks = c.ticks ∧ (c.writeCrt v).tickWait = c.tickWait := by
  unfold Cga.writeCrt
  simp only
  split
  · exact ⟨rfl, rfl⟩
  split
  · exact ⟨rfl, rfl⟩
  split <;> exact ⟨rfl, rfl⟩

theorem Cga.portOut_clock (c : Cga) (p : Word) (v : Byte) :
    (c.portOut p v).ticks = c.ticks ∧ (c.portOut p v).tickWait = c.tickWait := by
  unfold Cga.portOut
  split
  all_goals first | exact ⟨rfl, rfl⟩ | exact c.writeCrt_clock v

theorem Cga.portOut_lastScanlineNs (c : Cga) (p : Word) (v : Byte) :
    (c.portOut p v).lastScanlineNs = c.lastScanlineNs := by
  unfold Cga.portOut Cga.writeCrt
  simp only
  split
  all_goals first | rfl | (split; rfl; split; rfl; split <;> rfl)

theorem kept_tickProgress (c : Cga) : Kept fun t => TickProgress c t.cga where
  regs _ h := h
  cs _ h := h
  ds _ h := h
  es _ h := h
  ss _ h := h
  ip _ h := h
  flags _ h := h
  pend _ h := h
  draws _ h := h
  halt h := h
  ended h := h
  note _ h := h
  write8 a v h := by
    unfold State.write8
    split
    exacts [h, h.moment.congr rfl rfl, h, h, h]
  portIn8 p h := by
    unfold State.portIn8
    split
    exacts [h, h.congr (Cga.portIn_clock _ _).1 (Cga.portIn_clock _ _).2, h, h]
  portOut8 p v h := by
    unfold State.portOut8
    split
    exacts [h, h.moment.congr (Cga.portOut_clock _ _ _).1 (Cga.portOut_clock _ _ _).2, h, h]

theorem kept_scanlineTime (n : Nat) : Kept fun t => t.cga.lastScanlineNs = n where
  regs _ h := h
  cs _ h := h
  ds _ h := h
  es _ h := h
  ss _ h := h
  ip _ h := h
  flags _ h := h
  pend _ h := h
  draws _ h := h
  halt h := h
  ended h := h
  note _ h := h
  write8 a v h := by unfold State.write8; split <;> exact h
  portIn8 p h := by
    unfold State.portIn8
    split
    exacts [h, by unfold Cga.portIn; split <;> exact h, h, h]
  portOut8 p v h := by
    unfold State.portOut8
    split
    exacts [h, (Cga.portOut_lastScanlineNs ..).trans h, h, h]

/-- What a step does about the host's turn and the clocks: the processor's step leaves the host's things and the scanline
clock alone and may let the render task tick, and then the turn ends at the time the host's turn says (R11, R471, R480). -/
theorem step_turn {s t : State} (h : step s = .next t) :
    ∃ u, HostSame s.takeInput u ∧ TickProgress s.cga u.cga ∧ u.cga.lastScanlineNs = s.cga.lastScanlineNs ∧
      t = u.afterStep s.nextInput.elapsedNs := by
  unfold step State.turn at h
  split at h
  · rename_i u hu
    cases h
    exact ⟨u, (kept_hostSame s.takeInput).procStep (fun _ h => h) (fun h => h) (HostSame.refl _) hu,
      (kept_tickProgress s.cga).procStep (s := s.takeInput) (fun _ h => h) (fun h => h) (TickProgress.refl _) hu,
      (kept_scanlineTime _).procStep (s := s.takeInput) (fun _ h => h) (fun h => h) rfl hu, rfl⟩
  · cases h
  · cases h

end Sys2Proof.Machine
end

