-- ==== Sys2Proof/Laws/PerInstr.lean ====
section
/-! SUPPORT. One lemma per instruction: an instruction without its prefixes is one to six bytes long (30_encoding.md R130). -/

set_option Elab.async false

namespace Sys2Proof.Laws.EncodedLength

/-- The encoding of the instruction is one to six bytes long (R130). -/
def Statement (i : Instr) : Prop := 1 ≤ (encode i).length ∧ (encode i).length ≤ 6

theorem length_encMem (reg : BitVec 3) (m : Mem) : (encMem reg m).length ≤ 3 := by
  rcases m with d | ⟨b, _ | v | v⟩ <;> simp [encMem]

theorem length_encRM8 (reg : BitVec 3) (rm : RM Reg8) : (encRM8 reg rm).length ≤ 3 := by
  cases rm with
  | reg r => simp [encRM8]
  | mem m => exact length_encMem reg m

theorem length_encRM16 (reg : BitVec 3) (rm : RM Reg16) : (encRM16 reg rm).length ≤ 3 := by
  cases rm with
  | reg r => simp [encRM16]
  | mem m => exact length_encMem reg m

theorem length_encWord (v : Word) : (encWord v).length = 2 := rfl

/-- An opcode and an operand of at most three bytes. -/
theorem of_operand (op : Byte) (l : List Byte) (h : l.length ≤ 3) :
    1 ≤ (op :: l).length ∧ (op :: l).length ≤ 6 := by simp; omega

/-- An opcode, an operand of at most three bytes and an immediate of at most two. -/
theorem of_operand_imm (op : Byte) (l m : List Byte) (h : l.length ≤ 3) (hm : m.length ≤ 2) :
    1 ≤ (op :: (l ++ m)).length ∧ (op :: (l ++ m)).length ≤ 6 := by simp; omega

theorem addRm8R8 (rm : RM Reg8) (r : Reg8) : Statement (.addRm8R8 rm r) := of_operand _ _ (length_encRM8 ..)
theorem addRm16R16 (rm : RM Reg16) (r : Reg16) : Statement (.addRm16R16 rm r) := of_operand _ _ (length_encRM16 ..)
theorem addR8Rm8 (r : Reg8) (rm : RM Reg8) : Statement (.addR8Rm8 r rm) := of_operand _ _ (length_encRM8 ..)
theorem addR16Rm16 (r : Reg16) (rm : RM Reg16) : Statement (.addR16Rm16 r rm) := of_operand _ _ (length_encRM16 ..)
theorem addAlImm8 (imm : Byte) : Statement (.addAlImm8 imm) := ⟨by simp [encode], by simp [encode]⟩
theorem addAxImm16 (imm : Word) : Statement (.addAxImm16 imm) := ⟨by simp [encode, encWord], by simp [encode, encWord]⟩
theorem pushEs : Statement .pushEs := ⟨by decide, by decide⟩
theorem popEs : Statement .popEs := ⟨by decide, by decide⟩
theorem orRm8R8 (rm : RM Reg8) (r : Reg8) : Statement (.orRm8R8 rm r) := of_operand _ _ (length_encRM8 ..)
theorem orRm16R16 (rm : RM Reg16) (r : Reg16) : Statement (.orRm16R16 rm r) := of_operand _ _ (length_encRM16 ..)
theorem orR8Rm8 (r : Reg8) (rm : RM Reg8) : Statement (.orR8Rm8 r rm) := of_operand _ _ (length_encRM8 ..)
theorem orR16Rm16 (r : Reg16) (rm : RM Reg16) : Statement (.orR16Rm16 r rm) := of_operand _ _ (length_encRM16 ..)
theorem orAlImm8 (imm : Byte) : Statement (.orAlImm8 imm) := ⟨by simp [encode], by simp [encode]⟩
theorem orAxImm16 (imm : Word) : Statement (.orAxImm16 imm) := ⟨by simp [encode, encWord], by simp [encode, encWord]⟩
theorem pushCs : Statement .pushCs := ⟨by decide, by decide⟩
theorem adcRm8R8 (rm : RM Reg8) (r : Reg8) : Statement (.adcRm8R8 rm r) := of_operand _ _ (length_encRM8 ..)
theorem adcRm16R16 (rm : RM Reg16) (r : Reg16) : Statement (.adcRm16R16 rm r) := of_operand _ _ (length_encRM16 ..)
theorem adcR8Rm8 (r : Reg8) (rm : RM Reg8) : Statement (.adcR8Rm8 r rm) := of_operand _ _ (length_encRM8 ..)
theorem adcR16Rm16 (r : Reg16) (rm : RM Reg16) : Statement (.adcR16Rm16 r rm) := of_operand _ _ (length_encRM16 ..)
theorem adcAlImm8 (imm : Byte) : Statement (.adcAlImm8 imm) := ⟨by simp [encode], by simp [encode]⟩
theorem adcAxImm16 (imm : Word) : Statement (.adcAxImm16 imm) := ⟨by simp [encode, encWord], by simp [encode, encWord]⟩
theorem pushSs : Statement .pushSs := ⟨by decide, by decide⟩
theorem popSs : Statement .popSs := ⟨by decide, by decide⟩
theorem sbbRm8R8 (rm : RM Reg8) (r : Reg8) : Statement (.sbbRm8R8 rm r) := of_operand _ _ (length_encRM8 ..)
theorem sbbRm16R16 (rm : RM Reg16) (r : Reg16) : Statement (.sbbRm16R16 rm r) := of_operand _ _ (length_encRM16 ..)
theorem sbbR8Rm8 (r : Reg8) (rm : RM Reg8) : Statement (.sbbR8Rm8 r rm) := of_operand _ _ (length_encRM8 ..)
theorem sbbR16Rm16 (r : Reg16) (rm : RM Reg16) : Statement (.sbbR16Rm16 r rm) := of_operand _ _ (length_encRM16 ..)
theorem sbbAlImm8 (imm : Byte) : Statement (.sbbAlImm8 imm) := ⟨by simp [encode], by simp [encode]⟩
theorem sbbAxImm16 (imm : Word) : Statement (.sbbAxImm16 imm) := ⟨by simp [encode, encWord], by simp [encode, encWord]⟩
theorem pushDs : Statement .pushDs := ⟨by decide, by decide⟩
theorem popDs : Statement .popDs := ⟨by decide, by decide⟩
theorem andRm8R8 (rm : RM Reg8) (r : Reg8) : Statement (.andRm8R8 rm r) := of_operand _ _ (length_encRM8 ..)
theorem andRm16R16 (rm : RM Reg16) (r : Reg16) : Statement (.andRm16R16 rm r) := of_operand _ _ (length_encRM16 ..)
theorem andR8Rm8 (r : Reg8) (rm : RM Reg8) : Statement (.andR8Rm8 r rm) := of_operand _ _ (length_encRM8 ..)
theorem andR16Rm16 (r : Reg16) (rm : RM Reg16) : Statement (.andR16Rm16 r rm) := of_operand _ _ (length_encRM16 ..)
theorem andAlImm8 (imm : Byte) : Statement (.andAlImm8 imm) := ⟨by simp [encode], by simp [encode]⟩
theorem andAxImm16 (imm : Word) : Statement (.andAxImm16 imm) := ⟨by simp [encode, encWord], by simp [encode, encWord]⟩
theorem prefixEs : Statement .prefixEs := ⟨by decide, by decide⟩
theorem daa : Statement .daa := ⟨by decide, by decide⟩
theorem subRm8R8 (rm : RM Reg8) (r : Reg8) : Statement (.subRm8R8 rm r) := of_operand _ _ (length_encRM8 ..)
theorem subRm16R16 (rm : RM Reg16) (r : Reg16) : Statement (.subRm16R16 rm r) := of_operand _ _ (length_encRM16 ..)
theorem subR8Rm8 (r : Reg8) (rm : RM Reg8) : Statement (.subR8Rm8 r rm) := of_operand _ _ (length_encRM8 ..)
theorem subR16Rm16 (r : Reg16) (rm : RM Reg16) : Statement (.subR16Rm16 r rm) := of_operand _ _ (length_encRM16 ..)
theorem subAlImm8 (imm : Byte) : Statement (.subAlImm8 imm) := ⟨by simp [encode], by simp [encode]⟩
theorem subAxImm16 (imm : Word) : Statement (.subAxImm16 imm) := ⟨by simp [encode, encWord], by simp [encode, encWord]⟩
theorem prefixCs : Statement .prefixCs := ⟨by decide, by decide⟩
theorem das : Statement .das := ⟨by decide, by decide⟩
theorem xorRm8R8 (rm : RM Reg8) (r : Reg8) : Statement (.xorRm8R8 rm r) := of_operand _ _ (length_encRM8 ..)
theorem xorRm16R16 (rm : RM Reg16) (r : Reg16) : Statement (.xorRm16R16 rm r) := of_operand _ _ (length_encRM16 ..)
theorem xorR8Rm8 (r : Reg8) (rm : RM Reg8) : Statement (.xorR8Rm8 r rm) := of_operand _ _ (length_encRM8 ..)
theorem xorR16Rm16 (r : Reg16) (rm : RM Reg16) : Statement (.xorR16Rm16 r rm) := of_operand _ _ (length_encRM16 ..)
theorem xorAlImm8 (imm : Byte) : Statement (.xorAlImm8 imm) := ⟨by simp [encode], by simp [encode]⟩
theorem xorAxImm16 (imm : Word) : Statement (.xorAxImm16 imm) := ⟨by simp [encode, encWord], by simp [encode, encWord]⟩
theorem prefixSs : Statement .prefixSs := ⟨by decide, by decide⟩
theorem aaa : Statement .aaa := ⟨by decide, by decide⟩
theorem cmpRm8R8 (rm : RM Reg8) (r : Reg8) : Statement (.cmpRm8R8 rm r) := of_operand _ _ (length_encRM8 ..)
theorem cmpRm16R16 (rm : RM Reg16) (r : Reg16) : Statement (.cmpRm16R16 rm r) := of_operand _ _ (length_encRM16 ..)
theorem cmpR8Rm8 (r : Reg8) (rm : RM Reg8) : Statement (.cmpR8Rm8 r rm) := of_operand _ _ (length_encRM8 ..)
theorem cmpR16Rm16 (r : Reg16) (rm : RM Reg16) : Statement (.cmpR16Rm16 r rm) := of_operand _ _ (length_encRM16 ..)
theorem cmpAlImm8 (imm : Byte) : Statement (.cmpAlImm8 imm) := ⟨by simp [encode], by simp [encode]⟩
theorem cmpAxImm16 (imm : Word) : Statement (.cmpAxImm16 imm) := ⟨by simp [encode, encWord], by simp [encode, encWord]⟩
theorem prefixDs : Statement .prefixDs := ⟨by decide, by decide⟩
theorem aas : Statement .aas := ⟨by decide, by decide⟩
theorem incR16 (r : Reg16) : Statement (.incR16 r) := ⟨by simp [encode], by simp [encode]⟩
theorem decR16 (r : Reg16) : Statement (.decR16 r) := ⟨by simp [encode], by simp [encode]⟩
theorem pushR16 (r : Reg16) : Statement (.pushR16 r) := ⟨by simp [encode], by simp [encode]⟩
theorem popR16 (r : Reg16) : Statement (.popR16 r) := ⟨by simp [encode], by simp [encode]⟩
theorem joRel8 (rel : Byte) : Statement (.joRel8 rel) := ⟨by simp [encode], by simp [encode]⟩
theorem jnoRel8 (rel : Byte) : Statement (.jnoRel8 rel) := ⟨by simp [encode], by simp [encode]⟩
theorem jbRel8 (rel : Byte) : Statement (.jbRel8 rel) := ⟨by simp [encode], by simp [encode]⟩
theorem jnbRel8 (rel : Byte) : Statement (.jnbRel8 rel) := ⟨by simp [encode], by simp [encode]⟩
theorem jzRel8 (rel : Byte) : Statement (.jzRel8 rel) := ⟨by simp [encode], by simp [encode]⟩
theorem jnzRel8 (rel : Byte) : Statement (.jnzRel8 rel) := ⟨by simp [encode], by simp [encode]⟩
theorem jbeRel8 (rel : Byte) : Statement (.jbeRel8 rel) := ⟨by simp [encode], by simp [encode]⟩
theorem jnbeRel8 (rel : Byte) : Statement (.jnbeRel8 rel) := ⟨by simp [encode], by simp [encode]⟩
theorem jsRel8 (rel : Byte) : Statement (.jsRel8 rel) := ⟨by simp [encode], by simp [encode]⟩
theorem jnsRel8 (rel : Byte) : Statement (.jnsRel8 rel) := ⟨by simp [encode], by simp [encode]⟩
theorem jpRel8 (rel : Byte) : Statement (.jpRel8 rel) := ⟨by simp [encode], by simp [encode]⟩
theorem jnpRel8 (rel : Byte) : Statement (.jnpRel8 rel) := ⟨by simp [encode], by simp [encode]⟩
theorem jlRel8 (rel : Byte) : Statement (.jlRel8 rel) := ⟨by simp [encode], by simp [encode]⟩
theorem jnlRel8 (rel : Byte) : Statement (.jnlRel8 rel) := ⟨by simp [encode], by simp [encode]⟩
theorem jleRel8 (rel : Byte) : Statement (.jleRel8 rel) := ⟨by simp [encode], by simp [encode]⟩
theorem jnleRel8 (rel : Byte) : Statement (.jnleRel8 rel) := ⟨by simp [encode], by simp [encode]⟩
theorem addRm8Imm8 (rm : RM Reg8) (imm : Byte) : Statement (.addRm8Imm8 rm imm) := of_operand_imm _ _ _ (length_encRM8 ..) (by simp)
theorem orRm8Imm8 (rm : RM Reg8) (imm : Byte) : Statement (.orRm8Imm8 rm imm) := of_operand_imm _ _ _ (length_encRM8 ..) (by simp)
theorem adcRm8Imm8 (rm : RM Reg8) (imm : Byte) : Statement (.adcRm8Imm8 rm imm) := of_operand_imm _ _ _ (length_encRM8 ..) (by simp)
theorem sbbRm8Imm8 (rm : RM Reg8) (imm : Byte) : Statement (.sbbRm8Imm8 rm imm) := of_operand_imm _ _ _ (length_encRM8 ..) (by simp)
theorem andRm8Imm8 (rm : RM Reg8) (imm : Byte) : Statement (.andRm8Imm8 rm imm) := of_operand_imm _ _ _ (length_encRM8 ..) (by simp)
theorem subRm8Imm8 (rm : RM Reg8) (imm : Byte) : Statement (.subRm8Imm8 rm imm) := of_operand_imm _ _ _ (length_encRM8 ..) (by simp)
theorem xorRm8Imm8 (rm : RM Reg8) (imm : Byte) : Statement (.xorRm8Imm8 rm imm) := of_operand_imm _ _ _ (length_encRM8 ..) (by simp)
theorem cmpRm8Imm8 (rm : RM Reg8) (imm : Byte) : Statement (.cmpRm8Imm8 rm imm) := of_operand_imm _ _ _ (length_encRM8 ..) (by simp)
theorem addRm16Imm16 (rm : RM Reg16) (imm : Word) : Statement (.addRm16Imm16 rm imm) := of_operand_imm _ _ _ (length_encRM16 ..) (by simp [encWord])
theorem orRm16Imm16 (rm : RM Reg16) (imm : Word) : Statement (.orRm16Imm16 rm imm) := of_operand_imm _ _ _ (length_encRM16 ..) (by simp [encWord])
theorem adcRm16Imm16 (rm : RM Reg16) (imm : Word) : Statement (.adcRm16Imm16 rm imm) := of_operand_imm _ _ _ (length_encRM16 ..) (by simp [encWord])
theorem sbbRm16Imm16 (rm : RM Reg16) (imm : Word) : Statement (.sbbRm16Imm16 rm imm) := of_operand_imm _ _ _ (length_encRM16 ..) (by simp [encWord])
theorem andRm16Imm16 (rm : RM Reg16) (imm : Word) : Statement (.andRm16Imm16 rm imm) := of_operand_imm _ _ _ (length_encRM16 ..) (by simp [encWord])
theorem subRm16Imm16 (rm : RM Reg16) (imm : Word) : Statement (.subRm16Imm16 rm imm) := of_operand_imm _ _ _ (length_encRM16 ..) (by simp [encWord])
theorem xorRm16Imm16 (rm : RM Reg16) (imm : Word) : Statement (.xorRm16Imm16 rm imm) := of_operand_imm _ _ _ (length_encRM16 ..) (by simp [encWord])
theorem cmpRm16Imm16 (rm : RM Reg16) (imm : Word) : Statement (.cmpRm16Imm16 rm imm) := of_operand_imm _ _ _ (length_encRM16 ..) (by simp [encWord])
theorem addRm8Imm8Alias (rm : RM Reg8) (imm : Byte) : Statement (.addRm8Imm8Alias rm imm) := of_operand_imm _ _ _ (length_encRM8 ..) (by simp)
theorem orRm8Imm8Alias (rm : RM Reg8) (imm : Byte) : Statement (.orRm8Imm8Alias rm imm) := of_operand_imm _ _ _ (length_encRM8 ..) (by simp)
theorem adcRm8Imm8Alias (rm : RM Reg8) (imm : Byte) : Statement (.adcRm8Imm8Alias rm imm) := of_operand_imm _ _ _ (length_encRM8 ..) (by simp)
theorem sbbRm8Imm8Alias (rm : RM Reg8) (imm : Byte) : Statement (.sbbRm8Imm8Alias rm imm) := of_operand_imm _ _ _ (length_encRM8 ..) (by simp)
theorem andRm8Imm8Alias (rm : RM Reg8) (imm : Byte) : Statement (.andRm8Imm8Alias rm imm) := of_operand_imm _ _ _ (length_encRM8 ..) (by simp)
theorem subRm8Imm8Alias (rm : RM Reg8) (imm : Byte) : Statement (.subRm8Imm8Alias rm imm) := of_operand_imm _ _ _ (length_encRM8 ..) (by simp)
theorem xorRm8Imm8Alias (rm : RM Reg8) (imm : Byte) : Statement (.xorRm8Imm8Alias rm imm) := of_operand_imm _ _ _ (length_encRM8 ..) (by simp)
theorem cmpRm8Imm8Alias (rm : RM Reg8) (imm : Byte) : Statement (.cmpRm8Imm8Alias rm imm) := of_operand_imm _ _ _ (length_encRM8 ..) (by simp)
theorem addRm16Imm8 (rm : RM Reg16) (imm : Byte) : Statement (.addRm16Imm8 rm imm) := of_operand_imm _ _ _ (length_encRM16 ..) (by simp)
theorem orRm16Imm8 (rm : RM Reg16) (imm : Byte) : Statement (.orRm16Imm8 rm imm) := of_operand_imm _ _ _ (length_encRM16 ..) (by simp)
theorem adcRm16Imm8 (rm : RM Reg16) (imm : Byte) : Statement (.adcRm16Imm8 rm imm) := of_operand_imm _ _ _ (length_encRM16 ..) (by simp)
theorem sbbRm16Imm8 (rm : RM Reg16) (imm : Byte) : Statement (.sbbRm16Imm8 rm imm) := of_operand_imm _ _ _ (length_encRM16 ..) (by simp)
theorem andRm16Imm8 (rm : RM Reg16) (imm : Byte) : Statement (.andRm16Imm8 rm imm) := of_operand_imm _ _ _ (length_encRM16 ..) (by simp)
theorem subRm16Imm8 (rm : RM Reg16) (imm : Byte) : Statement (.subRm16Imm8 rm imm) := of_operand_imm _ _ _ (length_encRM16 ..) (by simp)
theorem xorRm16Imm8 (rm : RM Reg16) (imm : Byte) : Statement (.xorRm16Imm8 rm imm) := of_operand_imm _ _ _ (length_encRM16 ..) (by simp)
theorem cmpRm16Imm8 (rm : RM Reg16) (imm : Byte) : Statement (.cmpRm16Imm8 rm imm) := of_operand_imm _ _ _ (length_encRM16 ..) (by simp)
theorem testRm8R8 (rm : RM Reg8) (r : Reg8) : Statement (.testRm8R8 rm r) := of_operand _ _ (length_encRM8 ..)
theorem testRm16R16 (rm : RM Reg16) (r : Reg16) : Statement (.testRm16R16 rm r) := of_operand _ _ (length_encRM16 ..)
theorem xchgRm8R8 (rm : RM Reg8) (r : Reg8) : Statement (.xchgRm8R8 rm r) := of_operand _ _ (length_encRM8 ..)
theorem xchgRm16R16 (rm : RM Reg16) (r : Reg16) : Statement (.xchgRm16R16 rm r) := of_operand _ _ (length_encRM16 ..)
theorem movRm8R8 (rm : RM Reg8) (r : Reg8) : Statement (.movRm8R8 rm r) := of_operand _ _ (length_encRM8 ..)
theorem movRm16R16 (rm : RM Reg16) (r : Reg16) : Statement (.movRm16R16 rm r) := of_operand _ _ (length_encRM16 ..)
theorem movR8Rm8 (r : Reg8) (rm : RM Reg8) : Statement (.movR8Rm8 r rm) := of_operand _ _ (length_encRM8 ..)
theorem movR16Rm16 (r : Reg16) (rm : RM Reg16) : Statement (.movR16Rm16 r rm) := of_operand _ _ (length_encRM16 ..)
theorem movRm16Es (rm : RM Reg16) : Statement (.movRm16Es rm) := of_operand _ _ (length_encRM16 ..)
theorem movRm16Cs (rm : RM Reg16) : Statement (.movRm16Cs rm) := of_operand _ _ (length_encRM16 ..)
theorem movRm16Ss (rm : RM Reg16) : Statement (.movRm16Ss rm) := of_operand _ _ (length_encRM16 ..)
theorem movRm16Ds (rm : RM Reg16) : Statement (.movRm16Ds rm) := of_operand _ _ (length_encRM16 ..)
theorem leaR16M (r : Reg16) (m : Mem) : Statement (.leaR16M r m) := of_operand _ _ (length_encMem ..)
theorem movEsRm16 (rm : RM Reg16) : Statement (.movEsRm16 rm) := of_operand _ _ (length_encRM16 ..)
theorem movSsRm16 (rm : RM Reg16) : Statement (.movSsRm16 rm) := of_operand _ _ (length_encRM16 ..)
theorem movDsRm16 (rm : RM Reg16) : Statement (.movDsRm16 rm) := of_operand _ _ (length_encRM16 ..)
theorem popRm16 (rm : RM Reg16) : Statement (.popRm16 rm) := of_operand _ _ (length_encRM16 ..)
theorem nop : Statement .nop := ⟨by decide, by decide⟩
theorem xchgAxCx : Statement .xchgAxCx := ⟨by decide, by decide⟩
theorem xchgAxDx : Statement .xchgAxDx := ⟨by decide, by decide⟩
theorem xchgAxBx : Statement .xchgAxBx := ⟨by decide, by decide⟩
theorem xchgAxSp : Statement .xchgAxSp := ⟨by decide, by decide⟩
theorem xchgAxBp : Statement .xchgAxBp := ⟨by decide, by decide⟩
theorem xchgAxSi : Statement .xchgAxSi := ⟨by decide, by decide⟩
theorem xchgAxDi : Statement .xchgAxDi := ⟨by decide, by decide⟩
theorem cbw : Statement .cbw := ⟨by decide, by decide⟩
theorem cwd : Statement .cwd := ⟨by decide, by decide⟩
theorem callFarPtr (off : Word) (seg : Word) : Statement (.callFarPtr off seg) := ⟨by simp [encode, encWord], by simp [encode, encWord]⟩
theorem wait : Statement .wait := ⟨by decide, by decide⟩
theorem pushf : Statement .pushf := ⟨by decide, by decide⟩
theorem popf : Statement .popf := ⟨by decide, by decide⟩
theorem sahf : Statement .sahf := ⟨by decide, by decide⟩
theorem lahf : Statement .lahf := ⟨by decide, by decide⟩
theorem movAlMoffs8 (off : Word) : Statement (.movAlMoffs8 off) := ⟨by simp [encode, encWord], by simp [encode, encWord]⟩
theorem movAxMoffs16 (off : Word) : Statement (.movAxMoffs16 off) := ⟨by simp [encode, encWord], by simp [encode, encWord]⟩
theorem movMoffs8Al (off : Word) : Statement (.movMoffs8Al off) := ⟨by simp [encode, encWord], by simp [encode, encWord]⟩
theorem movMoffs16Ax (off : Word) : Statement (.movMoffs16Ax off) := ⟨by simp [encode, encWord], by simp [encode, encWord]⟩
theorem movsb : Statement .movsb := ⟨by decide, by decide⟩
theorem movsw : Statement .movsw := ⟨by decide, by decide⟩
theorem cmpsb : Statement .cmpsb := ⟨by decide, by decide⟩
theorem cmpsw : Statement .cmpsw := ⟨by decide, by decide⟩
theorem testAlImm8 (imm : Byte) : Statement (.testAlImm8 imm) := ⟨by simp [encode], by simp [encode]⟩
theorem testAxImm16 (imm : Word) : Statement (.testAxImm16 imm) := ⟨by simp [encode, encWord], by simp [encode, encWord]⟩
theorem stosb : Statement .stosb := ⟨by decide, by decide⟩
theorem stosw : Statement .stosw := ⟨by decide, by decide⟩
theorem lodsb : Statement .lodsb := ⟨by decide, by decide⟩
theorem lodsw : Statement .lodsw := ⟨by decide, by decide⟩
theorem scasb : Statement .scasb := ⟨by decide, by decide⟩
theorem scasw : Statement .scasw := ⟨by decide, by decide⟩
theorem movR8Imm8 (r : Reg8) (imm : Byte) : Statement (.movR8Imm8 r imm) := ⟨by simp [encode], by simp [encode]⟩
theorem movR16Imm16 (r : Reg16) (imm : Word) : Statement (.movR16Imm16 r imm) := ⟨by simp [encode, encWord], by simp [encode, encWord]⟩
theorem retImm16 (imm : Word) : Statement (.retImm16 imm) := ⟨by simp [encode, encWord], by simp [encode, encWord]⟩
theorem ret : Statement .ret := ⟨by decide, by decide⟩
theorem lesR16M (r : Reg16) (m : Mem) : Statement (.lesR16M r m) := of_operand _ _ (length_encMem ..)
theorem ldsR16M (r : Reg16) (m : Mem) : Statement (.ldsR16M r m) := of_operand _ _ (length_encMem ..)
theorem movRm8Imm8 (rm : RM Reg8) (imm : Byte) : Statement (.movRm8Imm8 rm imm) := of_operand_imm _ _ _ (length_encRM8 ..) (by simp)
theorem movRm16Imm16 (rm : RM Reg16) (imm : Word) : Statement (.movRm16Imm16 rm imm) := of_operand_imm _ _ _ (length_encRM16 ..) (by simp [encWord])
theorem retfImm16 (imm : Word) : Statement (.retfImm16 imm) := ⟨by simp [encode, encWord], by simp [encode, encWord]⟩
theorem retf : Statement .retf := ⟨by decide, by decide⟩
theorem int3 : Statement .int3 := ⟨by decide, by decide⟩
theorem intImm8 (vector : Byte) : Statement (.intImm8 vector) := ⟨by simp [encode], by simp [encode]⟩
theorem into : Statement .into := ⟨by decide, by decide⟩
theorem iret : Statement .iret := ⟨by decide, by decide⟩
theorem rolRm8One (rm : RM Reg8) : Statement (.rolRm8One rm) := of_operand _ _ (length_encRM8 ..)
theorem rorRm8One (rm : RM Reg8) : Statement (.rorRm8One rm) := of_operand _ _ (length_encRM8 ..)
theorem rclRm8One (rm : RM Reg8) : Statement (.rclRm8One rm) := of_operand _ _ (length_encRM8 ..)
theorem rcrRm8One (rm : RM Reg8) : Statement (.rcrRm8One rm) := of_operand _ _ (length_encRM8 ..)
theorem shlRm8One (rm : RM Reg8) : Statement (.shlRm8One rm) := of_operand _ _ (length_encRM8 ..)
theorem shrRm8One (rm : RM Reg8) : Statement (.shrRm8One rm) := of_operand _ _ (length_encRM8 ..)
theorem sarRm8One (rm : RM Reg8) : Statement (.sarRm8One rm) := of_operand _ _ (length_encRM8 ..)
theorem rolRm16One (rm : RM Reg16) : Statement (.rolRm16One rm) := of_operand _ _ (length_encRM16 ..)
theorem rorRm16One (rm : RM Reg16) : Statement (.rorRm16One rm) := of_operand _ _ (length_encRM16 ..)
theorem rclRm16One (rm : RM Reg16) : Statement (.rclRm16One rm) := of_operand _ _ (length_encRM16 ..)
theorem rcrRm16One (rm : RM Reg16) : Statement (.rcrRm16One rm) := of_operand _ _ (length_encRM16 ..)
theorem shlRm16One (rm : RM Reg16) : Statement (.shlRm16One rm) := of_operand _ _ (length_encRM16 ..)
theorem shrRm16One (rm : RM Reg16) : Statement (.shrRm16One rm) := of_operand _ _ (length_encRM16 ..)
theorem sarRm16One (rm : RM Reg16) : Statement (.sarRm16One rm) := of_operand _ _ (length_encRM16 ..)
theorem rolRm8Cl (rm : RM Reg8) : Statement (.rolRm8Cl rm) := of_operand _ _ (length_encRM8 ..)
theorem rorRm8Cl (rm : RM Reg8) : Statement (.rorRm8Cl rm) := of_operand _ _ (length_encRM8 ..)
theorem rclRm8Cl (rm : RM Reg8) : Statement (.rclRm8Cl rm) := of_operand _ _ (length_encRM8 ..)
theorem rcrRm8Cl (rm : RM Reg8) : Statement (.rcrRm8Cl rm) := of_operand _ _ (length_encRM8 ..)
theorem shlRm8Cl (rm : RM Reg8) : Statement (.shlRm8Cl rm) := of_operand _ _ (length_encRM8 ..)
theorem shrRm8Cl (rm : RM Reg8) : Statement (.shrRm8Cl rm) := of_operand _ _ (length_encRM8 ..)
theorem sarRm8Cl (rm : RM Reg8) : Statement (.sarRm8Cl rm) := of_operand _ _ (length_encRM8 ..)
theorem rolRm16Cl (rm : RM Reg16) : Statement (.rolRm16Cl rm) := of_operand _ _ (length_encRM16 ..)
theorem rorRm16Cl (rm : RM Reg16) : Statement (.rorRm16Cl rm) := of_operand _ _ (length_encRM16 ..)
theorem rclRm16Cl (rm : RM Reg16) : Statement (.rclRm16Cl rm) := of_operand _ _ (length_encRM16 ..)
theorem rcrRm16Cl (rm : RM Reg16) : Statement (.rcrRm16Cl rm) := of_operand _ _ (length_encRM16 ..)
theorem shlRm16Cl (rm : RM Reg16) : Statement (.shlRm16Cl rm) := of_operand _ _ (length_encRM16 ..)
theorem shrRm16Cl (rm : RM Reg16) : Statement (.shrRm16Cl rm) := of_operand _ _ (length_encRM16 ..)
theorem sarRm16Cl (rm : RM Reg16) : Statement (.sarRm16Cl rm) := of_operand _ _ (length_encRM16 ..)
theorem aamImm8 (imm : Byte) : Statement (.aamImm8 imm) := ⟨by simp [encode], by simp [encode]⟩
theorem aadImm8 (imm : Byte) : Statement (.aadImm8 imm) := ⟨by simp [encode], by simp [encode]⟩
theorem xlat : Statement .xlat := ⟨by decide, by decide⟩
theorem escRm (op : BitVec 6) (rm : RM Reg16) : Statement (.escRm op rm) := of_operand _ _ (length_encRM16 ..)
theorem loopnzRel8 (rel : Byte) : Statement (.loopnzRel8 rel) := ⟨by simp [encode], by simp [encode]⟩
theorem loopzRel8 (rel : Byte) : Statement (.loopzRel8 rel) := ⟨by simp [encode], by simp [encode]⟩
theorem loopRel8 (rel : Byte) : Statement (.loopRel8 rel) := ⟨by simp [encode], by simp [encode]⟩
theorem jcxzRel8 (rel : Byte) : Statement (.jcxzRel8 rel) := ⟨by simp [encode], by simp [encode]⟩
theorem inAlImm8 (port : Byte) : Statement (.inAlImm8 port) := ⟨by simp [encode], by simp [encode]⟩
theorem inAxImm8 (port : Byte) : Statement (.inAxImm8 port) := ⟨by simp [encode], by simp [encode]⟩
theorem outImm8Al (port : Byte) : Statement (.outImm8Al port) := ⟨by simp [encode], by simp [encode]⟩
theorem outImm8Ax (port : Byte) : Statement (.outImm8Ax port) := ⟨by simp [encode], by simp [encode]⟩
theorem callRel16 (rel : Word) : Statement (.callRel16 rel) := ⟨by simp [encode, encWord], by simp [encode, encWord]⟩
theorem jmpRel16 (rel : Word) : Statement (.jmpRel16 rel) := ⟨by simp [encode, encWord], by simp [encode, encWord]⟩
theorem jmpFarPtr (off : Word) (seg : Word) : Statement (.jmpFarPtr off seg) := ⟨by simp [encode, encWord], by simp [encode, encWord]⟩
theorem jmpRel8 (rel : Byte) : Statement (.jmpRel8 rel) := ⟨by simp [encode], by simp [encode]⟩
theorem inAlDx : Statement .inAlDx := ⟨by decide, by decide⟩
theorem inAxDx : Statement .inAxDx := ⟨by decide, by decide⟩
theorem outDxAl : Statement .outDxAl := ⟨by decide, by decide⟩
theorem outDxAx : Statement .outDxAx := ⟨by decide, by decide⟩
theorem prefixLock : Statement .prefixLock := ⟨by decide, by decide⟩
theorem prefixRepne : Statement .prefixRepne := ⟨by decide, by decide⟩
theorem prefixRep : Statement .prefixRep := ⟨by decide, by decide⟩
theorem hlt : Statement .hlt := ⟨by decide, by decide⟩
theorem cmc : Statement .cmc := ⟨by decide, by decide⟩
theorem testRm8Imm8 (rm : RM Reg8) (imm : Byte) : Statement (.testRm8Imm8 rm imm) := of_operand_imm _ _ _ (length_encRM8 ..) (by simp)
theorem notRm8 (rm : RM Reg8) : Statement (.notRm8 rm) := of_operand _ _ (length_encRM8 ..)
theorem negRm8 (rm : RM Reg8) : Statement (.negRm8 rm) := of_operand _ _ (length_encRM8 ..)
theorem mulRm8 (rm : RM Reg8) : Statement (.mulRm8 rm) := of_operand _ _ (length_encRM8 ..)
theorem imulRm8 (rm : RM Reg8) : Statement (.imulRm8 rm) := of_operand _ _ (length_encRM8 ..)
theorem divRm8 (rm : RM Reg8) : Statement (.divRm8 rm) := of_operand _ _ (length_encRM8 ..)
theorem idivRm8 (rm : RM Reg8) : Statement (.idivRm8 rm) := of_operand _ _ (length_encRM8 ..)
theorem testRm16Imm16 (rm : RM Reg16) (imm : Word) : Statement (.testRm16Imm16 rm imm) := of_operand_imm _ _ _ (length_encRM16 ..) (by simp [encWord])
theorem notRm16 (rm : RM Reg16) : Statement (.notRm16 rm) := of_operand _ _ (length_encRM16 ..)
theorem negRm16 (rm : RM Reg16) : Statement (.negRm16 rm) := of_operand _ _ (length_encRM16 ..)
theorem mulRm16 (rm : RM Reg16) : Statement (.mulRm16 rm) := of_operand _ _ (length_encRM16 ..)
theorem imulRm16 (rm : RM Reg16) : Statement (.imulRm16 rm) := of_operand _ _ (length_encRM16 ..)
theorem divRm16 (rm : RM Reg16) : Statement (.divRm16 rm) := of_operand _ _ (length_encRM16 ..)
theorem idivRm16 (rm : RM Reg16) : Statement (.idivRm16 rm) := of_operand _ _ (length_encRM16 ..)
theorem clc : Statement .clc := ⟨by decide, by decide⟩
theorem stc : Statement .stc := ⟨by decide, by decide⟩
theorem cli : Statement .cli := ⟨by decide, by decide⟩
theorem sti : Statement .sti := ⟨by decide, by decide⟩
theorem cld : Statement .cld := ⟨by decide, by decide⟩
theorem std : Statement .std := ⟨by decide, by decide⟩
theorem incRm8 (rm : RM Reg8) : Statement (.incRm8 rm) := of_operand _ _ (length_encRM8 ..)
theorem decRm8 (rm : RM Reg8) : Statement (.decRm8 rm) := of_operand _ _ (length_encRM8 ..)
theorem incRm16 (rm : RM Reg16) : Statement (.incRm16 rm) := of_operand _ _ (length_encRM16 ..)
theorem decRm16 (rm : RM Reg16) : Statement (.decRm16 rm) := of_operand _ _ (length_encRM16 ..)
theorem callRm16 (rm : RM Reg16) : Statement (.callRm16 rm) := of_operand _ _ (length_encRM16 ..)
theorem callFarM (m : Mem) : Statement (.callFarM m) := of_operand _ _ (length_encMem ..)
theorem jmpRm16 (rm : RM Reg16) : Statement (.jmpRm16 rm) := of_operand _ _ (length_encRM16 ..)
theorem jmpFarM (m : Mem) : Statement (.jmpFarM m) := of_operand _ _ (length_encMem ..)
theorem pushRm16 (rm : RM Reg16) : Statement (.pushRm16 rm) := of_operand _ _ (length_encRM16 ..)

end Sys2Proof.Laws.EncodedLength
end

