-- ==== Sys2Proof/Tests/Slice0.lean ====
section
/-! SUPPORT. Tests of the model: ill-formed terms refused, the decoding of every instruction, single steps from the test
vectors of spec/ (95_test_vectors.md, 96_test_vectors_2.md, each named by its row), the devices, and for every
obligation with hypotheses a state and operands that meet them. -/

set_option Elab.async false

namespace Sys2Proof.Machine.Tests

/-! ### Well-formedness -/

/-- `[BP]` without a displacement has no encoding (R140; vector E11): a term that names it is ill formed, in every
operand position. -/
theorem test_wf_refuses_bp_without_displacement :
    Instr.wf (.movRm8R8 (.mem (.based .bp .none)) .al) = false ∧
      Instr.wf (.movR16Rm16 .ax (.mem (.based .bp .none))) = false ∧
      Instr.wf (.leaR16M .bx (.based .bp .none)) = false ∧ Instr.wf (.jmpFarM (.based .bp .none)) = false ∧
      Instr.wf (.escRm 0 (.mem (.based .bp .none))) = false ∧
      Instr.wf (.movRm8R8 (.mem (.based .bp (.d8 0))) .al) = true ∧
      Instr.wf (.movRm8R8 (.mem (.based .bx .none)) .al) = true := by decide

/-- The bytes that an encoder without the check would give `[BP]` are the direct address (vector E7). -/
theorem test_wf_bp_bytes_are_direct :
    encode (.movR16Rm16 .ax (.mem (.based .bp .none))) ≠ encode (.movR16Rm16 .ax (.mem (.based .bp (.d8 0)))) ∧
      decode [0x8B, 0x06, 0x34, 0x12] = .ok (.movR16Rm16 .ax (.mem (.direct 0x1234)), []) := by
  exact ⟨by decide, rfl⟩

/-! ### Decoding: a word of every instruction, from R149 to R163 -/

/-- The bytes are one instruction, this one. -/
def reads (p : List Byte × Instr) : Bool :=
  match decode p.1 with
  | .ok (i, []) => i == p.2
  | _ => false

theorem test_decode_data_1 :
    ([([0x06], .pushEs),
        ([0x07], .popEs),
        ([0x0E], .pushCs),
        ([0x16], .pushSs),
        ([0x17], .popSs),
        ([0x1E], .pushDs),
        ([0x1F], .popDs),
        ([0x50], .pushR16 .ax),
        ([0x5B], .popR16 .bx),
        ([0x86, 0xF8], .xchgRm8R8 (.reg .al) .bh)] :
        List (List Byte × Instr)).all reads = true := by decide +kernel

theorem test_decode_data_2 :
    ([([0x87, 0x56, 0xFE], .xchgRm16R16 (.mem (.based .bp (.d8 0xFE))) .dx),
        ([0x88, 0xEE], .movRm8R8 (.reg .dh) .ch),
        ([0x89, 0x42, 0xFF], .movRm16R16 (.mem (.based .bpsi (.d8 0xFF))) .ax),
        ([0x8A, 0xDC], .movR8Rm8 .bl (.reg .ah)),
        ([0x8B, 0xB3, 0x78, 0x56], .movR16Rm16 .si (.mem (.based .bpdi (.d16 0x5678)))),
        ([0x8C, 0xC2], .movRm16Es (.reg .dx)),
        ([0x8C, 0x0C], .movRm16Cs (.mem (.based .si .none))),
        ([0x8C, 0xD0], .movRm16Ss (.reg .ax)),
        ([0x8C, 0x1E, 0x34, 0x12], .movRm16Ds (.mem (.direct 0x1234))),
        ([0x8D, 0x6E, 0xFE], .leaR16M .bp (.based .bp (.d8 0xFE)))] :
        List (List Byte × Instr)).all reads = true := by decide +kernel

theorem test_decode_data_3 :
    ([([0x8E, 0x87, 0x00, 0xF0], .movEsRm16 (.mem (.based .bx (.d16 0xF000)))),
        ([0x8E, 0xD4], .movSsRm16 (.reg .sp)),
        ([0x8E, 0x1D], .movDsRm16 (.mem (.based .di .none))),
        ([0x8F, 0xC2], .popRm16 (.reg .dx)),
        ([0x91], .xchgAxCx),
        ([0x92], .xchgAxDx),
        ([0x93], .xchgAxBx),
        ([0x94], .xchgAxSp),
        ([0x95], .xchgAxBp),
        ([0x96], .xchgAxSi)] :
        List (List Byte × Instr)).all reads = true := by decide +kernel

theorem test_decode_data_4 :
    ([([0x97], .xchgAxDi),
        ([0x9C], .pushf),
        ([0x9D], .popf),
        ([0x9E], .sahf),
        ([0x9F], .lahf),
        ([0xA0, 0xB7, 0x03], .movAlMoffs8 0x03B7),
        ([0xA1, 0x74, 0x0E], .movAxMoffs16 0x0E74),
        ([0xA2, 0x31, 0x19], .movMoffs8Al 0x1931),
        ([0xA3, 0xEE, 0x23], .movMoffs16Ax 0x23EE),
        ([0xB0, 0x49], .movR8Imm8 .al 0x49)] :
        List (List Byte × Instr)).all reads = true := by decide +kernel

theorem test_decode_data_5 :
    ([([0xBB, 0x68, 0x39], .movR16Imm16 .bx 0x3968),
        ([0xC4, 0xBB, 0x78, 0x56], .lesR16M .di (.based .bpdi (.d16 0x5678))),
        ([0xC5, 0x51, 0x80], .ldsR16M .dx (.based .bxdi (.d8 0x80))),
        ([0xC6, 0xC6, 0xDD], .movRm8Imm8 (.reg .dh) 0xDD),
        ([0xC7, 0x00, 0x5C, 0x64], .movRm16Imm16 (.mem (.based .bxsi .none)) 0x645C),
        ([0xD7], .xlat),
        ([0xE4, 0x4C], .inAlImm8 0x4C),
        ([0xE5, 0x71], .inAxImm8 0x71),
        ([0xE6, 0x96], .outImm8Al 0x96),
        ([0xE7, 0xBB], .outImm8Ax 0xBB)] :
        List (List Byte × Instr)).all reads = true := by decide +kernel

theorem test_decode_data_6 :
    ([([0xEC], .inAlDx),
        ([0xED], .inAxDx),
        ([0xEE], .outDxAl),
        ([0xEF], .outDxAx),
        ([0xFF, 0x36, 0x34, 0x12], .pushRm16 (.mem (.direct 0x1234)))] :
        List (List Byte × Instr)).all reads = true := by decide +kernel

theorem test_decode_arith_1 :
    ([([0x00, 0xCA], .addRm8R8 (.reg .dl) .cl),
        ([0x01, 0xA7, 0x00, 0xF0], .addRm16R16 (.mem (.based .bx (.d16 0xF000))) .sp),
        ([0x02, 0xF8], .addR8Rm8 .bh (.reg .al)),
        ([0x03, 0x15], .addR16Rm16 .dx (.mem (.based .di .none))),
        ([0x04, 0x2D], .addAlImm8 0x2D),
        ([0x05, 0x2C, 0x10], .addAxImm16 0x102C),
        ([0x10, 0xDC], .adcRm8R8 (.reg .ah) .bl),
        ([0x11, 0x30], .adcRm16R16 (.mem (.based .bxsi .none)) .si),
        ([0x12, 0xCA], .adcR8Rm8 .cl (.reg .dl)),
        ([0x13, 0x66, 0xFE], .adcR16Rm16 .sp (.mem (.based .bp (.d8 0xFE))))] :
        List (List Byte × Instr)).all reads = true := by decide +kernel

theorem test_decode_arith_2 :
    ([([0x14, 0x0B], .adcAlImm8 0x0B),
        ([0x15, 0x9A, 0x50], .adcAxImm16 0x509A),
        ([0x18, 0xEE], .sbbRm8R8 (.reg .dh) .ch),
        ([0x19, 0x83, 0x78, 0x56], .sbbRm16R16 (.mem (.based .bpdi (.d16 0x5678))) .ax),
        ([0x1A, 0xDC], .sbbR8Rm8 .bl (.reg .ah)),
        ([0x1B, 0x34], .sbbR16Rm16 .si (.mem (.based .si .none))),
        ([0x1C, 0xE9], .sbbAlImm8 0xE9),
        ([0x1D, 0x08, 0x91], .sbbAxImm16 0x9108),
        ([0x27], .daa),
        ([0x28, 0x97, 0x00, 0xF0], .subRm8R8 (.mem (.based .bx (.d16 0xF000))) .dl)] :
        List (List Byte × Instr)).all reads = true := by decide +kernel

theorem test_decode_arith_3 :
    ([([0x29, 0xEE], .subRm16R16 (.reg .si) .bp),
        ([0x2A, 0x05], .subR8Rm8 .al (.mem (.based .di .none))),
        ([0x2B, 0xDC], .subR16Rm16 .bx (.reg .sp)),
        ([0x2C, 0xEC], .subAlImm8 0xEC),
        ([0x2D, 0x33, 0xDC], .subAxImm16 0xDC33),
        ([0x2F], .das),
        ([0x37], .aaa),
        ([0x38, 0x56, 0xFE], .cmpRm8R8 (.mem (.based .bp (.d8 0xFE))) .dl),
        ([0x39, 0xEE], .cmpRm16R16 (.reg .si) .bp),
        ([0x3A, 0x42, 0xFF], .cmpR8Rm8 .al (.mem (.based .bpsi (.d8 0xFF))))] :
        List (List Byte × Instr)).all reads = true := by decide +kernel

theorem test_decode_arith_4 :
    ([([0x3B, 0xDC], .cmpR16Rm16 .bx (.reg .sp)),
        ([0x3C, 0x14], .cmpAlImm8 0x14),
        ([0x3D, 0x1B, 0x32], .cmpAxImm16 0x321B),
        ([0x3F], .aas),
        ([0x45], .incR16 .bp),
        ([0x4E], .decR16 .si),
        ([0x80, 0xC6, 0xCD], .addRm8Imm8 (.reg .dh) 0xCD),
        ([0x80, 0x97, 0x00, 0xF0, 0xF2], .adcRm8Imm8 (.mem (.based .bx (.d16 0xF000))) 0xF2),
        ([0x80, 0xDC, 0x17], .sbbRm8Imm8 (.reg .ah) 0x17),
        ([0x80, 0x2D, 0x3C], .subRm8Imm8 (.mem (.based .di .none)) 0x3C)] :
        List (List Byte × Instr)).all reads = true := by decide +kernel

theorem test_decode_arith_5 :
    ([([0x80, 0xFA, 0x61], .cmpRm8Imm8 (.reg .dl) 0x61),
        ([0x81, 0x41, 0x80, 0xC0, 0x92], .addRm16Imm16 (.mem (.based .bxdi (.d8 0x80))) 0x92C0),
        ([0x81, 0xD0, 0x7D, 0x9D], .adcRm16Imm16 (.reg .ax) 0x9D7D),
        ([0x81, 0x18, 0x3A, 0xA8], .sbbRm16Imm16 (.mem (.based .bxsi .none)) 0xA83A),
        ([0x81, 0xEE, 0xF7, 0xB2], .subRm16Imm16 (.reg .si) 0xB2F7),
        ([0x81, 0x7E, 0xFE, 0xB4, 0xBD], .cmpRm16Imm16 (.mem (.based .bp (.d8 0xFE))) 0xBDB4),
        ([0x82, 0xC4, 0x3F], .addRm8Imm8Alias (.reg .ah) 0x3F),
        ([0x82, 0x52, 0xFF, 0x64], .adcRm8Imm8Alias (.mem (.based .bpsi (.d8 0xFF))) 0x64),
        ([0x82, 0xDA, 0x89], .sbbRm8Imm8Alias (.reg .dl) 0x89),
        ([0x82, 0xAB, 0x78, 0x56, 0xAE], .subRm8Imm8Alias (.mem (.based .bpdi (.d16 0x5678))) 0xAE)] :
        List (List Byte × Instr)).all reads = true := by decide +kernel

theorem test_decode_arith_6 :
    ([([0x82, 0xF8, 0xD3], .cmpRm8Imm8Alias (.reg .al) 0xD3),
        ([0x83, 0x04, 0xF8], .addRm16Imm8 (.mem (.based .si .none)) 0xF8),
        ([0x83, 0xD6, 0x1D], .adcRm16Imm8 (.reg .si) 0x1D),
        ([0x83, 0x1E, 0x34, 0x12, 0x42], .sbbRm16Imm8 (.mem (.direct 0x1234)) 0x42),
        ([0x83, 0xEC, 0x67], .subRm16Imm8 (.reg .sp) 0x67),
        ([0x83, 0xBF, 0x00, 0xF0, 0x8C], .cmpRm16Imm8 (.mem (.based .bx (.d16 0xF000))) 0x8C),
        ([0x98], .cbw),
        ([0x99], .cwd),
        ([0xD4, 0xFB], .aamImm8 0xFB),
        ([0xD5, 0x20], .aadImm8 0x20)] :
        List (List Byte × Instr)).all reads = true := by decide +kernel

theorem test_decode_arith_7 :
    ([([0xF6, 0xDE], .negRm8 (.reg .dh)),
        ([0xF6, 0x20], .mulRm8 (.mem (.based .bxsi .none))),
        ([0xF6, 0xEC], .imulRm8 (.reg .ah)),
        ([0xF6, 0x76, 0xFE], .divRm8 (.mem (.based .bp (.d8 0xFE)))),
        ([0xF6, 0xFA], .idivRm8 (.reg .dl)),
        ([0xF7, 0x5A, 0xFF], .negRm16 (.mem (.based .bpsi (.d8 0xFF)))),
        ([0xF7, 0xE0], .mulRm16 (.reg .ax)),
        ([0xF7, 0xAB, 0x78, 0x56], .imulRm16 (.mem (.based .bpdi (.d16 0x5678)))),
        ([0xF7, 0xF6], .divRm16 (.reg .si)),
        ([0xF7, 0x3C], .idivRm16 (.mem (.based .si .none)))] :
        List (List Byte × Instr)).all reads = true := by decide +kernel

theorem test_decode_arith_8 :
    ([([0xFE, 0xC4], .incRm8 (.reg .ah)),
        ([0xFE, 0x0E, 0x34, 0x12], .decRm8 (.mem (.direct 0x1234))),
        ([0xFF, 0xC2], .incRm16 (.reg .dx)),
        ([0xFF, 0x8F, 0x00, 0xF0], .decRm16 (.mem (.based .bx (.d16 0xF000))))] :
        List (List Byte × Instr)).all reads = true := by decide +kernel

theorem test_decode_logic_1 :
    ([([0x08, 0xF8], .orRm8R8 (.reg .al) .bh),
        ([0x09, 0x15], .orRm16R16 (.mem (.based .di .none)) .dx),
        ([0x0A, 0xEE], .orR8Rm8 .ch (.reg .dh)),
        ([0x0B, 0x41, 0x80], .orR16Rm16 .ax (.mem (.based .bxdi (.d8 0x80)))),
        ([0x0C, 0xDF], .orAlImm8 0xDF),
        ([0x0D, 0xCE, 0x2A], .orAxImm16 0x2ACE),
        ([0x20, 0xCA], .andRm8R8 (.reg .dl) .cl),
        ([0x21, 0x66, 0xFE], .andRm16R16 (.mem (.based .bp (.d8 0xFE))) .sp),
        ([0x22, 0xF8], .andR8Rm8 .bh (.reg .al)),
        ([0x23, 0x52, 0xFF], .andR16Rm16 .dx (.mem (.based .bpsi (.d8 0xFF))))] :
        List (List Byte × Instr)).all reads = true := by decide +kernel

theorem test_decode_logic_2 :
    ([([0x24, 0xBD], .andAlImm8 0xBD),
        ([0x25, 0x3C, 0x6B], .andAxImm16 0x6B3C),
        ([0x30, 0xDC], .xorRm8R8 (.reg .ah) .bl),
        ([0x31, 0x34], .xorRm16R16 (.mem (.based .si .none)) .si),
        ([0x32, 0xCA], .xorR8Rm8 .cl (.reg .dl)),
        ([0x33, 0x26, 0x34, 0x12], .xorR16Rm16 .sp (.mem (.direct 0x1234))),
        ([0x34, 0x9B], .xorAlImm8 0x9B),
        ([0x35, 0xAA, 0xAB], .xorAxImm16 0xABAA),
        ([0x80, 0xCE, 0xE5], .orRm8Imm8 (.reg .dh) 0xE5),
        ([0x80, 0x25, 0x0A], .andRm8Imm8 (.mem (.based .di .none)) 0x0A)] :
        List (List Byte × Instr)).all reads = true := by decide +kernel

theorem test_decode_logic_3 :
    ([([0x80, 0xF4, 0x2F], .xorRm8Imm8 (.reg .ah) 0x2F),
        ([0x81, 0x49, 0x80, 0x9E, 0xD6], .orRm16Imm16 (.mem (.based .bxdi (.d8 0x80))) 0xD69E),
        ([0x81, 0xE2, 0x5B, 0xE1], .andRm16Imm16 (.reg .dx) 0xE15B),
        ([0x81, 0x30, 0x18, 0xEC], .xorRm16Imm16 (.mem (.based .bxsi .none)) 0xEC18),
        ([0x82, 0xC8, 0xC3], .orRm8Imm8Alias (.reg .al) 0xC3),
        ([0x82, 0x66, 0xFE, 0xE8], .andRm8Imm8Alias (.mem (.based .bp (.d8 0xFE))) 0xE8),
        ([0x82, 0xF6, 0x0D], .xorRm8Imm8Alias (.reg .dh) 0x0D),
        ([0x83, 0x4A, 0xFF, 0x32], .orRm16Imm8 (.mem (.based .bpsi (.d8 0xFF))) 0x32),
        ([0x83, 0xE4, 0x57], .andRm16Imm8 (.reg .sp) 0x57),
        ([0x83, 0xB3, 0x78, 0x56, 0x7C], .xorRm16Imm8 (.mem (.based .bpdi (.d16 0x5678))) 0x7C)] :
        List (List Byte × Instr)).all reads = true := by decide +kernel

theorem test_decode_logic_4 :
    ([([0x84, 0xCA], .testRm8R8 (.reg .dl) .cl),
        ([0x85, 0x24], .testRm16R16 (.mem (.based .si .none)) .sp),
        ([0xA8, 0xEB], .testAlImm8 0xEB),
        ([0xA9, 0x7A, 0x57], .testAxImm16 0x577A),
        ([0xF6, 0xC6, 0x35], .testRm8Imm8 (.reg .dh) 0x35),
        ([0xF6, 0x97, 0x00, 0xF0], .notRm8 (.mem (.based .bx (.d16 0xF000)))),
        ([0xF7, 0xC4, 0xB1, 0x77], .testRm16Imm16 (.reg .sp) 0x77B1),
        ([0xF7, 0x15], .notRm16 (.mem (.based .di .none)))] :
        List (List Byte × Instr)).all reads = true := by decide +kernel

theorem test_decode_shift_1 :
    ([([0xD0, 0xC2], .rolRm8One (.reg .dl)),
        ([0xD0, 0x49, 0x80], .rorRm8One (.mem (.based .bxdi (.d8 0x80)))),
        ([0xD0, 0xD0], .rclRm8One (.reg .al)),
        ([0xD0, 0x18], .rcrRm8One (.mem (.based .bxsi .none))),
        ([0xD0, 0xE6], .shlRm8One (.reg .dh)),
        ([0xD0, 0x6E, 0xFE], .shrRm8One (.mem (.based .bp (.d8 0xFE)))),
        ([0xD0, 0xFC], .sarRm8One (.reg .ah)),
        ([0xD1, 0x42, 0xFF], .rolRm16One (.mem (.based .bpsi (.d8 0xFF)))),
        ([0xD1, 0xCA], .rorRm16One (.reg .dx)),
        ([0xD1, 0x93, 0x78, 0x56], .rclRm16One (.mem (.based .bpdi (.d16 0x5678))))] :
        List (List Byte × Instr)).all reads = true := by decide +kernel

theorem test_decode_shift_2 :
    ([([0xD1, 0xD8], .rcrRm16One (.reg .ax)),
        ([0xD1, 0x24], .shlRm16One (.mem (.based .si .none))),
        ([0xD1, 0xEE], .shrRm16One (.reg .si)),
        ([0xD1, 0x3E, 0x34, 0x12], .sarRm16One (.mem (.direct 0x1234))),
        ([0xD2, 0xC4], .rolRm8Cl (.reg .ah)),
        ([0xD2, 0x8F, 0x00, 0xF0], .rorRm8Cl (.mem (.based .bx (.d16 0xF000)))),
        ([0xD2, 0xD2], .rclRm8Cl (.reg .dl)),
        ([0xD2, 0x1D], .rcrRm8Cl (.mem (.based .di .none))),
        ([0xD2, 0xE0], .shlRm8Cl (.reg .al)),
        ([0xD2, 0x69, 0x80], .shrRm8Cl (.mem (.based .bxdi (.d8 0x80))))] :
        List (List Byte × Instr)).all reads = true := by decide +kernel

theorem test_decode_shift_3 :
    ([([0xD2, 0xFE], .sarRm8Cl (.reg .dh)),
        ([0xD3, 0x00], .rolRm16Cl (.mem (.based .bxsi .none))),
        ([0xD3, 0xCC], .rorRm16Cl (.reg .sp)),
        ([0xD3, 0x56, 0xFE], .rclRm16Cl (.mem (.based .bp (.d8 0xFE)))),
        ([0xD3, 0xDA], .rcrRm16Cl (.reg .dx)),
        ([0xD3, 0x62, 0xFF], .shlRm16Cl (.mem (.based .bpsi (.d8 0xFF)))),
        ([0xD3, 0xE8], .shrRm16Cl (.reg .ax)),
        ([0xD3, 0xBB, 0x78, 0x56], .sarRm16Cl (.mem (.based .bpdi (.d16 0x5678))))] :
        List (List Byte × Instr)).all reads = true := by decide +kernel

theorem test_decode_stringops_1 :
    ([([0xA4], .movsb),
        ([0xA5], .movsw),
        ([0xA6], .cmpsb),
        ([0xA7], .cmpsw),
        ([0xAA], .stosb),
        ([0xAB], .stosw),
        ([0xAC], .lodsb),
        ([0xAD], .lodsw),
        ([0xAE], .scasb),
        ([0xAF], .scasw)] :
        List (List Byte × Instr)).all reads = true := by decide +kernel

theorem test_decode_control_1 :
    ([([0x70, 0x47], .joRel8 0x47),
        ([0x71, 0x6C], .jnoRel8 0x6C),
        ([0x72, 0x91], .jbRel8 0x91),
        ([0x73, 0xB6], .jnbRel8 0xB6),
        ([0x74, 0xDB], .jzRel8 0xDB),
        ([0x75, 0x00], .jnzRel8 0x00),
        ([0x76, 0x25], .jbeRel8 0x25),
        ([0x77, 0x4A], .jnbeRel8 0x4A),
        ([0x78, 0x6F], .jsRel8 0x6F),
        ([0x79, 0x94], .jnsRel8 0x94)] :
        List (List Byte × Instr)).all reads = true := by decide +kernel

theorem test_decode_control_2 :
    ([([0x7A, 0xB9], .jpRel8 0xB9),
        ([0x7B, 0xDE], .jnpRel8 0xDE),
        ([0x7C, 0x03], .jlRel8 0x03),
        ([0x7D, 0x28], .jnlRel8 0x28),
        ([0x7E, 0x4D], .jleRel8 0x4D),
        ([0x7F, 0x72], .jnleRel8 0x72),
        ([0x9A, 0x09, 0xD1, 0x09, 0xD1], .callFarPtr 0xD109 0xD109),
        ([0xC2, 0xC6, 0xDB], .retImm16 0xDBC6),
        ([0xC3], .ret),
        ([0xCA, 0x40, 0xF1], .retfImm16 0xF140)] :
        List (List Byte × Instr)).all reads = true := by decide +kernel

theorem test_decode_control_3 :
    ([([0xCB], .retf),
        ([0xCC], .int3),
        ([0xCD, 0x75], .intImm8 0x75),
        ([0xCE], .into),
        ([0xCF], .iret),
        ([0xE0, 0xE4], .loopnzRel8 0xE4),
        ([0xE1, 0x09], .loopzRel8 0x09),
        ([0xE2, 0x2E], .loopRel8 0x2E),
        ([0xE3, 0x53], .jcxzRel8 0x53),
        ([0xE8, 0xA2, 0x5C], .callRel16 0x5CA2)] :
        List (List Byte × Instr)).all reads = true := by decide +kernel

theorem test_decode_control_4 :
    ([([0xE9, 0x5F, 0x67], .jmpRel16 0x675F),
        ([0xEA, 0x1C, 0x72, 0x1C, 0x72], .jmpFarPtr 0x721C 0x721C),
        ([0xEB, 0xE7], .jmpRel8 0xE7),
        ([0xFF, 0x15], .callRm16 (.mem (.based .di .none))),
        ([0xFF, 0x9B, 0x78, 0x56], .callFarM (.based .bpdi (.d16 0x5678))),
        ([0xFF, 0x61, 0x80], .jmpRm16 (.mem (.based .bxdi (.d8 0x80)))),
        ([0xFF, 0x2C], .jmpFarM (.based .si .none))] :
        List (List Byte × Instr)).all reads = true := by decide +kernel

theorem test_decode_processor_1 :
    ([([0x26], .prefixEs),
        ([0x2E], .prefixCs),
        ([0x36], .prefixSs),
        ([0x3E], .prefixDs),
        ([0x90], .nop),
        ([0x9B], .wait),
        ([0xDB, 0xA3, 0x78, 0x56], .escRm 0x1C (.mem (.based .bpdi (.d16 0x5678)))),
        ([0xF0], .prefixLock),
        ([0xF2], .prefixRepne),
        ([0xF3], .prefixRep)] :
        List (List Byte × Instr)).all reads = true := by decide +kernel

theorem test_decode_processor_2 :
    ([([0xF4], .hlt),
        ([0xF5], .cmc),
        ([0xF8], .clc),
        ([0xF9], .stc),
        ([0xFA], .cli),
        ([0xFB], .sti),
        ([0xFC], .cld),
        ([0xFD], .std)] :
        List (List Byte × Instr)).all reads = true := by decide +kernel

/-- Every encoding in the list of R160 that the vectors name (H35, X19 to X35) is refused. -/
theorem test_decode_invalid :
    ([[0xD0, 0xF0], [0x0F, 0], [0x60, 0], [0x6F, 0], [0xC0, 0], [0xC8, 0], [0xD6, 0], [0xF1, 0], [0x8E, 0xC8], [0x8C, 0xE0],
        [0x8F, 0xC8], [0xC6, 0x08], [0xF6, 0xC8], [0xFE, 0xD0], [0xFF, 0xF8], [0xFF, 0xD8], [0x8D, 0xC3], [0xC4, 0xC3]] :
          List (List Byte)).all (fun bs => match decode (bs ++ [0, 0, 0, 0]) with
        | .error _ => true
        | .ok _ => false) = true := by decide +kernel

/-! ### Single steps (95_test_vectors.md Part 2: the base state) -/

/-- The base state of the vectors, with a turn of the host in which nothing happens, and no render tick soon. -/
def base : State :=
  { State.reset with
    regs := ⟨0, 0, 0, 0, 0x0100, 0, 0, 0⟩, cs := 0x1000, ds := 0x3000, es := 0x4000, ss := 0x2000, ip := 0x0100
    inputs := [⟨[], 0⟩], cga := { State.reset.cga with tickWait := 1000 } }

/-- The base state with general registers `ax cx dx bx sp bp si di`. -/
def withRegs (ax cx dx bx sp bp si di : Word) : State := { base with regs := ⟨ax, cx, dx, bx, sp, bp, si, di⟩ }

/-- The flags `CF PF AF ZF SF OF` as the columns CPAZSO show them. -/
def status (t : State) : BitVec 6 :=
  BitVec.ofBool t.flags.cf ++ BitVec.ofBool t.flags.pf ++ BitVec.ofBool t.flags.af ++ BitVec.ofBool t.flags.zf ++
    BitVec.ofBool t.flags.sf ++ BitVec.ofBool t.flags.ofl

/-- The state with the flags `CF PF AF ZF SF OF`. -/
def State.withStatus (s : State) (v : BitVec 6) : State :=
  { s with
    flags :=
      { s.flags with
        cf := v.getLsbD 5, pf := v.getLsbD 4, af := v.getLsbD 3, zf := v.getLsbD 2, sf := v.getLsbD 1
        ofl := v.getLsbD 0 } }

/-- The state with bytes of memory written. -/
def State.withBytes (s : State) : List (Addr × Byte) → State
  | [] => s
  | p :: ps => State.withBytes (s.write8 p.1 p.2) ps

/-- One step on the bytes at `CS:IP` gives a next state of which P holds. -/
def ends (bs : List Byte) (s : State) (P : State → Bool) : Bool :=
  match step (s.placeCode s.ip bs) with
  | .next t => P t
  | _ => false

/-- T1: MOV AH, 0x12 (R204). -/
theorem test_T1 :
    ends [0xB4, 0x12] (withRegs 0x00FF 0 0 0 0x0100 0 0 0) (fun t =>
        t.regs.ax == 0x12FF && t.ip == 0x0102) = true := by decide +kernel

/-- T4: MOV [BX+SI], AL (R201). -/
theorem test_T4 :
    ends [0x88, 0x00] (withRegs 0x005A 0 0 0x0010 0x0100 0 0x0002 0) (fun t =>
        t.ip == 0x0102 && t.read8 0x30012 == 0x5A) = true := by decide +kernel

/-- T6: MOV AX, [BP+SI-1] (R202). -/
theorem test_T6 :
    ends [0x8B, 0x42, 0xFF] (State.withBytes (withRegs 0 0 0 0 0x0100 0x0010 0x0001 0) [(0x20010, 0x78), (0x20011,
      0x56)]) (fun t =>
        t.regs.ax == 0x5678 && t.ip == 0x0103) = true := by decide +kernel

/-- T7: MOV AX, ES:[BX] (R202). -/
theorem test_T7 :
    ends [0x26, 0x8B, 0x07] (State.withBytes (withRegs 0 0 0 0x0010 0x0100 0 0 0) [(0x40010, 0xCD), (0x40011,
      0xAB)]) (fun t =>
        t.regs.ax == 0xABCD && t.ip == 0x0103) = true := by decide +kernel

/-- T9: MOV AX, [0xFFFF] (R205). -/
theorem test_T9 :
    ends [0xA1, 0xFF, 0xFF] (State.withBytes base [(0x3FFFF, 0x34), (0x40000, 0x12)]) (fun t =>
        t.regs.ax == 0x1234 && t.ip == 0x0103) = true := by decide +kernel

/-- T10: MOV AX, [0xFFFF] (DS=F000) (R205). -/
theorem test_T10 :
    ends [0xA1, 0xFF, 0xFF] (State.withBytes { base with ds := 0xF000 } [(0xFFFFF, 0x34), (0x00000, 0x12)]) (fun t =>
        t.regs.ax == 0x1234 && t.ip == 0x0103) = true := by decide +kernel

/-- T13: MOV SS:[0x0200], AL (R206). -/
theorem test_T13 :
    ends [0x36, 0xA2, 0x00, 0x02] (withRegs 0x0042 0 0 0 0x0100 0 0 0) (fun t =>
        t.ip == 0x0104 && t.read8 0x20200 == 0x42) = true := by decide +kernel

/-- T15: MOV WORD [0x0300], 0x1234 (R203). -/
theorem test_T15 :
    ends [0xC7, 0x06, 0x00, 0x03, 0x34, 0x12] base (fun t =>
        t.ip == 0x0106 && t.read8 0x30300 == 0x34 && t.read8 0x30301 == 0x12) = true := by decide +kernel

/-- T17: MOV AX, DS (R207). -/
theorem test_T17 :
    ends [0x8C, 0xD8] base (fun t =>
        t.regs.ax == 0x3000 && t.ip == 0x0102) = true := by decide +kernel

/-- T20: MOV SS, [BX] (R208). -/
theorem test_T20 :
    ends [0x8E, 0x17] (State.withBytes (withRegs 0 0 0 0x0040 0x0100 0 0 0) [(0x30040, 0x00), (0x30041, 0x50)]) (fun
      t =>
        t.ss == 0x5000 && t.ip == 0x0102) = true := by decide +kernel

/-- T21: PUSH AX (R209). -/
theorem test_T21 :
    ends [0x50] (withRegs 0x1234 0 0 0 0x0100 0 0 0) (fun t =>
        t.regs.sp == 0x00FE && t.ip == 0x0101 && t.read8 0x200FE == 0x34 && t.read8 0x200FF == 0x12) = true
          := by decide +kernel

/-- T23: PUSH SP (R209). -/
theorem test_T23 :
    ends [0x54] base (fun t =>
        t.regs.sp == 0x00FE && t.ip == 0x0101 && t.read8 0x200FE == 0xFE && t.read8 0x200FF == 0x00) = true
          := by decide +kernel

/-- T24: PUSH WORD [BX] (R210). -/
theorem test_T24 :
    ends [0xFF, 0x37] (State.withBytes (withRegs 0 0 0 0x0040 0x0100 0 0 0) [(0x30040, 0xEF), (0x30041, 0xBE)]) (fun
      t =>
        t.regs.sp == 0x00FE && t.ip == 0x0102 && t.read8 0x200FE == 0xEF && t.read8 0x200FF == 0xBE) = true
          := by decide +kernel

/-- T25: PUSH CS (R211). -/
theorem test_T25 :
    ends [0x0E] base (fun t =>
        t.regs.sp == 0x00FE && t.ip == 0x0101 && t.read8 0x200FE == 0x00 && t.read8 0x200FF == 0x10) = true
          := by decide +kernel

/-- T27: POP SP (R212). -/
theorem test_T27 :
    ends [0x5C] (State.withBytes (withRegs 0 0 0 0 0x00FE 0 0 0) [(0x200FE, 0x00), (0x200FF, 0x03)]) (fun t =>
        t.regs.sp == 0x0300 && t.ip == 0x0101) = true := by decide +kernel

/-- T28: POP WORD [BX] (R213). -/
theorem test_T28 :
    ends [0x8F, 0x07] (State.withBytes (withRegs 0 0 0 0x0040 0x00FE 0 0 0) [(0x200FE, 0x78), (0x200FF, 0x56)]) (fun
      t =>
        t.regs.sp == 0x0100 && t.ip == 0x0102 && t.read8 0x30040 == 0x78 && t.read8 0x30041 == 0x56) = true
          := by decide +kernel

/-- T29: POP DS (R214). -/
theorem test_T29 :
    ends [0x1F] (State.withBytes (withRegs 0 0 0 0 0x00FE 0 0 0) [(0x200FE, 0x00), (0x200FF, 0x60)]) (fun t =>
        t.regs.sp == 0x0100 && t.ds == 0x6000 && t.ip == 0x0101) = true := by decide +kernel

/-- T30: XCHG AL, AH (86 /r register form) (R215). -/
theorem test_T30 :
    ends [0x86, 0xE0] (withRegs 0x1234 0 0 0 0x0100 0 0 0) (fun t =>
        t.regs.ax == 0x3412 && t.ip == 0x0102) = true := by decide +kernel

/-- T31: XCHG [BX], CX (R215). -/
theorem test_T31 :
    ends [0x87, 0x0F] (State.withBytes (withRegs 0 0x1111 0 0x0040 0x0100 0 0 0) [(0x30040, 0x22), (0x30041, 0x22)])
      (fun t =>
        t.regs.cx == 0x2222 && t.ip == 0x0102 && t.read8 0x30040 == 0x11 && t.read8 0x30041 == 0x11) = true
          := by decide +kernel

/-- T32: XCHG AX, DX (R216). -/
theorem test_T32 :
    ends [0x92] (withRegs 0x1111 0 0x2222 0 0x0100 0 0 0) (fun t =>
        t.regs.ax == 0x2222 && t.regs.dx == 0x1111 && t.ip == 0x0101) = true := by decide +kernel

/-- T33: XLAT (R218). -/
theorem test_T33 :
    ends [0xD7] (State.withBytes (withRegs 0x00FF 0 0 0x0100 0x0100 0 0 0) [(0x301FF, 0x5A)]) (fun t =>
        t.regs.ax == 0x005A && t.ip == 0x0101) = true := by decide +kernel

/-- T34: CS: XLAT (R218). -/
theorem test_T34 :
    ends [0x2E, 0xD7] (State.withBytes (withRegs 0x0001 0 0 0x0200 0x0100 0 0 0) [(0x10201, 0x6B)]) (fun t =>
        t.regs.ax == 0x006B && t.ip == 0x0102) = true := by decide +kernel

/-- T35: LEA AX, [BX+SI+0x7FFF] (R219). -/
theorem test_T35 :
    ends [0x8D, 0x80, 0xFF, 0x7F] (withRegs 0 0 0 0x8000 0x0100 0 0x0002 0) (fun t =>
        t.regs.ax == 0x0001 && t.ip == 0x0104) = true := by decide +kernel

/-- T37: LDS SI, [BX] (R220). -/
theorem test_T37 :
    ends [0xC5, 0x37] (State.withBytes (withRegs 0 0 0 0x0040 0x0100 0 0 0) [(0x30040, 0x34), (0x30041, 0x12),
      (0x30042, 0x00), (0x30043, 0x50)]) (fun t =>
        t.regs.si == 0x1234 && t.ds == 0x5000 && t.ip == 0x0102) = true := by decide +kernel

/-- T38: LES DI, [0x0040] (R221). -/
theorem test_T38 :
    ends [0xC4, 0x3E, 0x40, 0x00] (State.withBytes base [(0x30040, 0x34), (0x30041, 0x12), (0x30042, 0x00),
      (0x30043, 0xB8)]) (fun t =>
        t.regs.di == 0x1234 && t.es == 0xB800 && t.ip == 0x0104) = true := by decide +kernel

/-- T39: IN AL, 0x60 (unmapped) (R222). -/
theorem test_T39 :
    ends [0xE4, 0x60] (withRegs 0xFFFF 0 0 0 0x0100 0 0 0) (fun t =>
        t.regs.ax == 0xFF00 && t.ip == 0x0102) = true := by decide +kernel

/-- T42: IN AX, DX (DX=0x20: IRR then IMR) (R225). -/
theorem test_T42 :
    ends [0xED] (withRegs 0xFFFF 0 0x0020 0 0x0100 0 0 0) (fun t =>
        t.regs.ax == 0x0000 && t.ip == 0x0101) = true := by decide +kernel

/-- T45: OUT DX, AL (CGA colour control) (R228). -/
theorem test_T45 :
    ends [0xEE] (withRegs 0x0030 0 0x03D9 0 0x0100 0 0 0) (fun t =>
        t.ip == 0x0101 && t.cga.colorCtrl == 0x30) = true := by decide +kernel

/-- T46: OUT DX, AX (DX=FFFF: ports FFFF then 0000) (R229). -/
theorem test_T46 :
    ends [0xEF] (withRegs 0x1234 0 0xFFFF 0 0x0100 0 0 0) (fun t =>
        t.ip == 0x0101) = true := by decide +kernel

/-- T47: LAHF (R230). -/
theorem test_T47 :
    ends [0x9F] (State.withStatus base 0b101010) (fun t =>
        t.regs.ax == 0x9300 && t.ip == 0x0101 && status t == 0b101010) = true := by decide +kernel

/-- T49: SAHF (AH=FF) (R231). -/
theorem test_T49 :
    ends [0x9E] (State.withStatus (withRegs 0xFF00 0 0 0 0x0100 0 0 0) 0b000001) (fun t =>
        t.ip == 0x0101 && status t == 0b111111) = true := by decide +kernel

/-- T52: PUSHF (all nine set) (R232). -/
theorem test_T52 :
    ends [0x9C] (State.withStatus { base with flags := { base.flags with ifl := true, df := true } } 0b111111) (fun
      t =>
        t.regs.sp == 0x00FE && t.ip == 0x0101 && t.read8 0x200FE == 0xD7 && t.read8 0x200FF == 0xFE &&
          status t == 0b111111) = true := by decide +kernel

/-- T53: POPF (image 0x0ED5) (R233). -/
theorem test_T53 :
    ends [0x9D] (State.withBytes (withRegs 0 0 0 0 0x00FE 0 0 0) [(0x200FE, 0xD5), (0x200FF, 0x0E)]) (fun t =>
        t.regs.sp == 0x0100 && t.ip == 0x0101 && t.flags.ifl && t.flags.df && status t == 0b111111) = true
          := by decide +kernel

/-- A1: ADD AL, 0x01 (R244). -/
theorem test_A1 :
    ends [0x04, 0x01] (withRegs 0x007F 0 0 0 0x0100 0 0 0) (fun t =>
        t.regs.ax == 0x0080 && t.ip == 0x0102 && status t == 0b001011) = true := by decide +kernel

/-- A6: ADD [BX], AX (R244). -/
theorem test_A6 :
    ends [0x01, 0x07] (State.withBytes (withRegs 0x0001 0 0 0x0040 0x0100 0 0 0) [(0x30040, 0xFF), (0x30041, 0x00)])
      (fun t =>
        t.ip == 0x0102 && t.read8 0x30040 == 0x00 && t.read8 0x30041 == 0x01 && status t == 0b011000) = true
          := by decide +kernel

/-- A7: ADD BX, -1 (83 /0 sign-extended ib) (R244). -/
theorem test_A7 :
    ends [0x83, 0xC3, 0xFF] (withRegs 0 0 0 0x0001 0x0100 0 0 0) (fun t =>
        t.regs.bx == 0x0000 && t.ip == 0x0103 && status t == 0b111100) = true := by decide +kernel

/-- A8: ADD BL, 0x10 (82 /0 alias of 80) (R244). -/
theorem test_A8 :
    ends [0x82, 0xC3, 0x10] (withRegs 0 0 0 0x00F0 0x0100 0 0 0) (fun t =>
        t.regs.bx == 0x0000 && t.ip == 0x0103 && status t == 0b110100) = true := by decide +kernel

/-- A9: ADD AX, AX (low byte 0x00: PF from low byte) (R244). -/
theorem test_A9 :
    ends [0x01, 0xC0] (withRegs 0x0180 0 0 0 0x0100 0 0 0) (fun t =>
        t.regs.ax == 0x0300 && t.ip == 0x0102 && status t == 0b010000) = true := by decide +kernel

/-- A10: ADC AL, 0x00 (CF=1) (R245). -/
theorem test_A10 :
    ends [0x14, 0x00] (State.withStatus (withRegs 0x00FF 0 0 0 0x0100 0 0 0) 0b100000) (fun t =>
        t.regs.ax == 0x0000 && t.ip == 0x0102 && status t == 0b111100) = true := by decide +kernel

/-- A13: ADC AL, 0x0F (CF=1, AF from carry-in) (R245). -/
theorem test_A13 :
    ends [0x14, 0x0F] (State.withStatus base 0b100000) (fun t =>
        t.regs.ax == 0x0010 && t.ip == 0x0102 && status t == 0b001000) = true := by decide +kernel

/-- A14: SUB AL, 0x01 (R246). -/
theorem test_A14 :
    ends [0x2C, 0x01] base (fun t =>
        t.regs.ax == 0x00FF && t.ip == 0x0102 && status t == 0b111010) = true := by decide +kernel

/-- A18: SUB WORD [BX], 0x0001 (81 /5) (R246). -/
theorem test_A18 :
    ends [0x81, 0x2F, 0x01, 0x00] (State.withBytes (withRegs 0 0 0 0x0040 0x0100 0 0 0) [(0x30040, 0x00), (0x30041,
      0x00)]) (fun t =>
        t.ip == 0x0104 && t.read8 0x30040 == 0xFF && t.read8 0x30041 == 0xFF && status t == 0b111010) = true
          := by decide +kernel

/-- A22: SBB AL, 0x7F (CF=1) (R247). -/
theorem test_A22 :
    ends [0x1C, 0x7F] (State.withStatus (withRegs 0x0080 0 0 0 0x0100 0 0 0) 0b100000) (fun t =>
        t.regs.ax == 0x0000 && t.ip == 0x0102 && status t == 0b011101) = true := by decide +kernel

/-- A24: CMP AX, BX (signed overflow) (R248). -/
theorem test_A24 :
    ends [0x39, 0xD8] (withRegs 0x8000 0 0 0x0001 0x0100 0 0 0) (fun t =>
        t.ip == 0x0102 && status t == 0b011001) = true := by decide +kernel

/-- A26: CMP CX, +1 (83 /7) (R248). -/
theorem test_A26 :
    ends [0x83, 0xF9, 0x01] base (fun t =>
        t.ip == 0x0103 && status t == 0b111010) = true := by decide +kernel

/-- A27: INC AL (FE /0), CF kept (R249). -/
theorem test_A27 :
    ends [0xFE, 0xC0] (State.withStatus (withRegs 0x00FF 0 0 0 0x0100 0 0 0) 0b100000) (fun t =>
        t.regs.ax == 0x0000 && t.ip == 0x0102 && status t == 0b111100) = true := by decide +kernel

/-- A30: INC CX (R250). -/
theorem test_A30 :
    ends [0x41] (State.withStatus (withRegs 0 0x7FFF 0 0 0x0100 0 0 0) 0b100000) (fun t =>
        t.regs.cx == 0x8000 && t.ip == 0x0101 && status t == 0b111011) = true := by decide +kernel

/-- A31: DEC AL (FE /1), CF kept (R251). -/
theorem test_A31 :
    ends [0xFE, 0xC8] base (fun t =>
        t.regs.ax == 0x00FF && t.ip == 0x0102 && status t == 0b011010) = true := by decide +kernel

/-- A32: DEC WORD [BX] (FF /1) (R251). -/
theorem test_A32 :
    ends [0xFF, 0x0F] (State.withBytes (withRegs 0 0 0 0x0040 0x0100 0 0 0) [(0x30040, 0x00), (0x30041, 0x80)]) (fun
      t =>
        t.ip == 0x0102 && t.read8 0x30040 == 0xFF && t.read8 0x30041 == 0x7F && status t == 0b011001) = true
          := by decide +kernel

/-- A33: DEC BX (R252). -/
theorem test_A33 :
    ends [0x4B] (State.withStatus (withRegs 0 0 0 0x0001 0x0100 0 0 0) 0b100000) (fun t =>
        t.regs.bx == 0x0000 && t.ip == 0x0101 && status t == 0b110100) = true := by decide +kernel

/-- A35: NEG AL (R253). -/
theorem test_A35 :
    ends [0xF6, 0xD8] (withRegs 0x0001 0 0 0 0x0100 0 0 0) (fun t =>
        t.regs.ax == 0x00FF && t.ip == 0x0102 && status t == 0b111010) = true := by decide +kernel

/-- A37: NEG AL (0x80) (R253). -/
theorem test_A37 :
    ends [0xF6, 0xD8] (withRegs 0x0080 0 0 0 0x0100 0 0 0) (fun t =>
        t.ip == 0x0102 && status t == 0b100011) = true := by decide +kernel

/-- A40: MUL BL (R254). -/
theorem test_A40 :
    ends [0xF6, 0xE3] (withRegs 0x0010 0 0 0x0010 0x0100 0 0 0) (fun t =>
        t.regs.ax == 0x0100 && t.ip == 0x0102 && t.flags.cf && t.flags.ofl) = true := by decide +kernel

/-- A43: MUL BX (R254). -/
theorem test_A43 :
    ends [0xF7, 0xE3] (withRegs 0xFFFF 0 0 0xFFFF 0x0100 0 0 0) (fun t =>
        t.regs.ax == 0x0001 && t.regs.dx == 0xFFFE && t.ip == 0x0102 && t.flags.cf && t.flags.ofl) = true :=
          by decide +kernel

/-- A47: IMUL BL (-128 x -1; old AH is not an input) (R255). -/
theorem test_A47 :
    ends [0xF6, 0xEB] (withRegs 0xFF80 0 0 0x00FF 0x0100 0 0 0) (fun t =>
        t.regs.ax == 0x0080 && t.ip == 0x0102 && t.flags.cf && t.flags.ofl) = true := by decide +kernel

/-- A51: IMUL BX (-2 x 3) (R255). -/
theorem test_A51 :
    ends [0xF7, 0xEB] (withRegs 0xFFFE 0 0x1111 0x0003 0x0100 0 0 0) (fun t =>
        t.regs.ax == 0xFFFA && t.regs.dx == 0xFFFF && t.ip == 0x0102 && !t.flags.cf && !t.flags.ofl) = true
          := by decide +kernel

/-- A52: DIV BL (0x0064 / 7) (R256). -/
theorem test_A52 :
    ends [0xF6, 0xF3] (withRegs 0x0064 0 0 0x0007 0x0100 0 0 0) (fun t =>
        t.regs.ax == 0x020E && t.ip == 0x0102) = true := by decide +kernel

/-- A54: DIV BX (0x00010000 / 2) (R256). -/
theorem test_A54 :
    ends [0xF7, 0xF3] (withRegs 0 0 0x0001 0x0002 0x0100 0 0 0) (fun t =>
        t.regs.ax == 0x8000 && t.regs.dx == 0x0000 && t.ip == 0x0102) = true := by decide +kernel

/-- A56: DIV BL (by zero) (R256, R267). -/
theorem test_A56 :
    ends [0xF6, 0xF3] (State.withBytes (State.withStatus { (withRegs 0x1234 0 0 0 0x0100 0 0 0) with flags := {
      base.flags with ifl := true } } 0b100000) [(0x00000, 0x00), (0x00001, 0x20), (0x00002, 0x00), (0x00003,
      0xF0)]) (fun t =>
        t.regs.sp == 0x00FA && t.cs == 0xF000 && t.ip == 0x2000 && t.read8 0x200FA == 0x02 && t.read8
          0x200FB == 0x01 && t.read8 0x200FC == 0x00 && t.read8 0x200FD == 0x10 && t.read8 0x200FE == 0x03
          && t.read8 0x200FF == 0xF2 && !t.flags.ifl && status t == 0b100000) = true := by decide +kernel

/-- A59: IDIV BL (-100 / 7) (R257). -/
theorem test_A59 :
    ends [0xF6, 0xFB] (withRegs 0xFF9C 0 0 0x0007 0x0100 0 0 0) (fun t =>
        t.regs.ax == 0xFEF2 && t.ip == 0x0102) = true := by decide +kernel

/-- A61: IDIV BL (-100 / -7) (R257). -/
theorem test_A61 :
    ends [0xF6, 0xFB] (withRegs 0xFF9C 0 0 0x00F9 0x0100 0 0 0) (fun t =>
        t.regs.ax == 0xFE0E && t.ip == 0x0102) = true := by decide +kernel

/-- A64: IDIV BL (quotient +128) (R257, R267). -/
theorem test_A64 :
    ends [0xF6, 0xFB] (State.withBytes (withRegs 0x0080 0 0 0x0001 0x0100 0 0 0) [(0x00000, 0x00), (0x00001, 0x20),
      (0x00002, 0x00), (0x00003, 0xF0)]) (fun t =>
        t.regs.sp == 0x00FA && t.cs == 0xF000 && t.ip == 0x2000 && t.read8 0x200FA == 0x02 && t.read8
          0x200FB == 0x01 && t.read8 0x200FC == 0x00 && t.read8 0x200FD == 0x10 && t.read8 0x200FE == 0x02
          && t.read8 0x200FF == 0xF0 && status t == 0b000000) = true := by decide +kernel

/-- A66: IDIV BX (7 / -2) (R257). -/
theorem test_A66 :
    ends [0xF7, 0xFB] (withRegs 0x0007 0 0 0xFFFE 0x0100 0 0 0) (fun t =>
        t.regs.ax == 0xFFFD && t.regs.dx == 0x0001 && t.ip == 0x0102) = true := by decide +kernel

/-- A68: CBW (R264). -/
theorem test_A68 :
    ends [0x98] (State.withStatus (withRegs 0x1280 0 0 0 0x0100 0 0 0) 0b100000) (fun t =>
        t.regs.ax == 0xFF80 && t.ip == 0x0101 && status t == 0b100000) = true := by decide +kernel

/-- A70: CWD (R265). -/
theorem test_A70 :
    ends [0x99] (withRegs 0x8000 0 0x1234 0 0x0100 0 0 0) (fun t =>
        t.regs.dx == 0xFFFF && t.ip == 0x0101 && status t == 0b000000) = true := by decide +kernel

/-- A72: AAA (AL low nibble > 9) (R258). -/
theorem test_A72 :
    ends [0x37] (withRegs 0x000F 0 0 0 0x0100 0 0 0) (fun t =>
        t.regs.ax == 0x0105 && t.ip == 0x0101 && t.flags.cf && t.flags.af) = true := by decide +kernel

/-- A75: AAS (AL low nibble > 9) (R259). -/
theorem test_A75 :
    ends [0x3F] (withRegs 0x020F 0 0 0 0x0100 0 0 0) (fun t =>
        t.regs.ax == 0x0109 && t.ip == 0x0101 && t.flags.cf && t.flags.af) = true := by decide +kernel

/-- A77: AAS (borrow out of AH) (R259). -/
theorem test_A77 :
    ends [0x3F] (withRegs 0x00FF 0 0 0 0x0100 0 0 0) (fun t =>
        t.regs.ax == 0xFF09 && t.ip == 0x0101 && t.flags.cf && t.flags.af) = true := by decide +kernel

/-- A78: AAM (R262). -/
theorem test_A78 :
    ends [0xD4, 0x0A] (withRegs 0xFF3F 0 0 0 0x0100 0 0 0) (fun t =>
        t.regs.ax == 0x0603 && t.ip == 0x0102 && t.flags.pf && !t.flags.zf && !t.flags.sf) = true := by
          decide +kernel

/-- A80: AAM 0 (divide error) (R262, R267). -/
theorem test_A80 :
    ends [0xD4, 0x00] (State.withBytes (withRegs 0x1234 0 0 0 0x0100 0 0 0) [(0x00000, 0x00), (0x00001, 0x20),
      (0x00002, 0x00), (0x00003, 0xF0)]) (fun t =>
        t.regs.sp == 0x00FA && t.cs == 0xF000 && t.ip == 0x2000 && t.read8 0x200FA == 0x02 && t.read8
          0x200FB == 0x01 && t.read8 0x200FC == 0x00 && t.read8 0x200FD == 0x10 && t.read8 0x200FE == 0x02
          && t.read8 0x200FF == 0xF0 && status t == 0b000000) = true := by decide +kernel

/-- A81: AAD (R263). -/
theorem test_A81 :
    ends [0xD5, 0x0A] (withRegs 0x0205 0 0 0 0x0100 0 0 0) (fun t =>
        t.regs.ax == 0x0019 && t.ip == 0x0102 && !t.flags.pf && !t.flags.zf && !t.flags.sf) = true := by
          decide +kernel

/-- A84: DAA (0x9A: both) (R260). -/
theorem test_A84 :
    ends [0x27] (withRegs 0x009A 0 0 0 0x0100 0 0 0) (fun t =>
        t.regs.ax == 0x0000 && t.ip == 0x0101 && t.flags.cf && t.flags.pf && t.flags.af && t.flags.zf &&
          !t.flags.sf) = true := by decide +kernel

/-- A86: DAA (AF=1) (R260). -/
theorem test_A86 :
    ends [0x27] (State.withStatus (withRegs 0x0012 0 0 0 0x0100 0 0 0) 0b001000) (fun t =>
        t.regs.ax == 0x0018 && t.ip == 0x0101 && !t.flags.cf && t.flags.pf && t.flags.af && !t.flags.zf &&
          !t.flags.sf) = true := by decide +kernel

/-- A89: DAS (0xFF) (R261). -/
theorem test_A89 :
    ends [0x2F] (withRegs 0x00FF 0 0 0 0x0100 0 0 0) (fun t =>
        t.regs.ax == 0x0099 && t.ip == 0x0101 && t.flags.cf && t.flags.pf && t.flags.af && !t.flags.zf &&
          t.flags.sf) = true := by decide +kernel

/-- A90: DAS (CF=1, AL=0x00) (R261). -/
theorem test_A90 :
    ends [0x2F] (State.withStatus base 0b100000) (fun t =>
        t.regs.ax == 0x00A0 && t.ip == 0x0101 && t.flags.cf && t.flags.pf && !t.flags.af && !t.flags.zf &&
          t.flags.sf) = true := by decide +kernel

/-- A91: AAA (AL = 0xFB: AL + 6 is taken modulo 2^8) (R258). -/
theorem test_A91 :
    ends [0x37] (withRegs 0x00FB 0 0 0 0x0100 0 0 0) (fun t =>
        t.regs.ax == 0x0101 && t.ip == 0x0101 && t.flags.cf && t.flags.af) = true := by decide +kernel

/-- L1: AND AL, 0x0F (R282). -/
theorem test_L1 :
    ends [0x24, 0x0F] (State.withStatus (withRegs 0x00F0 0 0 0 0x0100 0 0 0) 0b100001) (fun t =>
        t.regs.ax == 0x0000 && t.ip == 0x0102 && !t.flags.cf && t.flags.pf && t.flags.zf && !t.flags.sf &&
          !t.flags.ofl) = true := by decide +kernel

/-- L3: AND BYTE [BX], 0x81 (80 /4) (R282). -/
theorem test_L3 :
    ends [0x80, 0x27, 0x81] (State.withBytes (withRegs 0 0 0 0x0040 0x0100 0 0 0) [(0x30040, 0xFF)]) (fun t =>
        t.ip == 0x0103 && t.read8 0x30040 == 0x81 && !t.flags.cf && t.flags.pf && !t.flags.zf && t.flags.sf
          && !t.flags.ofl) = true := by decide +kernel

/-- L6: OR WORD [BX], -16 (83 /1 sign-extended ib) (R283). -/
theorem test_L6 :
    ends [0x83, 0x0F, 0xF0] (State.withBytes (withRegs 0 0 0 0x0040 0x0100 0 0 0) [(0x30040, 0x01), (0x30041,
      0x00)]) (fun t =>
        t.ip == 0x0103 && t.read8 0x30040 == 0xF1 && t.read8 0x30041 == 0xFF && !t.flags.cf && !t.flags.pf
          && !t.flags.zf && t.flags.sf && !t.flags.ofl) = true := by decide +kernel

/-- L7: XOR AX, AX (R284). -/
theorem test_L7 :
    ends [0x31, 0xC0] (State.withStatus (withRegs 0x1234 0 0 0 0x0100 0 0 0) 0b100000) (fun t =>
        t.regs.ax == 0x0000 && t.ip == 0x0102 && !t.flags.cf && t.flags.pf && t.flags.zf && !t.flags.sf &&
          !t.flags.ofl) = true := by decide +kernel

/-- L10: NOT AL (no flags) (R281). -/
theorem test_L10 :
    ends [0xF6, 0xD0] (State.withStatus (withRegs 0x0055 0 0 0 0x0100 0 0 0) 0b100100) (fun t =>
        t.regs.ax == 0x00AA && t.ip == 0x0102 && status t == 0b100100) = true := by decide +kernel

/-- L11: NOT WORD [BX] (R281). -/
theorem test_L11 :
    ends [0xF7, 0x17] (State.withBytes (withRegs 0 0 0 0x0040 0x0100 0 0 0) [(0x30040, 0x00), (0x30041, 0xFF)]) (fun
      t =>
        t.ip == 0x0102 && t.read8 0x30040 == 0xFF && t.read8 0x30041 == 0x00 && status t == 0b000000) = true
          := by decide +kernel

/-- L12: TEST AL, 0x80 (A8) (R285). -/
theorem test_L12 :
    ends [0xA8, 0x80] (State.withStatus (withRegs 0x0080 0 0 0 0x0100 0 0 0) 0b100000) (fun t =>
        t.ip == 0x0102 && !t.flags.cf && !t.flags.pf && !t.flags.zf && t.flags.sf && !t.flags.ofl) = true :=
          by decide +kernel

/-- L15: TEST WORD [BX], 0x8000 (F7 /0) (R285). -/
theorem test_L15 :
    ends [0xF7, 0x07, 0x00, 0x80] (State.withBytes (withRegs 0 0 0 0x0040 0x0100 0 0 0) [(0x30040, 0x00), (0x30041,
      0x80)]) (fun t =>
        t.ip == 0x0104 && !t.flags.cf && t.flags.pf && !t.flags.zf && t.flags.sf && !t.flags.ofl) = true :=
          by decide +kernel

/-- H4: SHL AL, CL (CL=0) (R286). -/
theorem test_H4 :
    ends [0xD2, 0xE0] (State.withStatus (withRegs 0x0081 0 0 0 0x0100 0 0 0) 0b100101) (fun t =>
        t.ip == 0x0102 && status t == 0b100101) = true := by decide +kernel

/-- H5: SHL AL, CL (CL=4) (R287). -/
theorem test_H5 :
    ends [0xD2, 0xE0] (withRegs 0x001F 0x0004 0 0 0x0100 0 0 0) (fun t =>
        t.regs.ax == 0x00F0 && t.ip == 0x0102 && t.flags.cf && t.flags.pf && !t.flags.zf && t.flags.sf) =
          true := by decide +kernel

/-- H9: SHL BX, CL (CL=32, not masked) (R287). -/
theorem test_H9 :
    ends [0xD3, 0xE3] (State.withStatus (withRegs 0 0x0020 0 0xFFFF 0x0100 0 0 0) 0b100000) (fun t =>
        t.regs.bx == 0x0000 && t.ip == 0x0102 && !t.flags.cf && t.flags.pf && t.flags.zf && !t.flags.sf) =
          true := by decide +kernel

/-- H10: SHL BYTE [BX], 1 (R287). -/
theorem test_H10 :
    ends [0xD0, 0x27] (State.withBytes (withRegs 0 0 0 0x0040 0x0100 0 0 0) [(0x30040, 0x55)]) (fun t =>
        t.ip == 0x0102 && t.read8 0x30040 == 0xAA && !t.flags.cf && t.flags.pf && !t.flags.zf && t.flags.sf
          && t.flags.ofl) = true := by decide +kernel

/-- H11: SHR AL, 1 (R288). -/
theorem test_H11 :
    ends [0xD0, 0xE8] (withRegs 0x0081 0 0 0 0x0100 0 0 0) (fun t =>
        t.regs.ax == 0x0040 && t.ip == 0x0102 && t.flags.cf && !t.flags.pf && !t.flags.zf && !t.flags.sf &&
          t.flags.ofl) = true := by decide +kernel

/-- H15: SHR BX, CL (CL=17) (R288). -/
theorem test_H15 :
    ends [0xD3, 0xEB] (State.withStatus (withRegs 0 0x0011 0 0x8000 0x0100 0 0 0) 0b100000) (fun t =>
        t.regs.bx == 0x0000 && t.ip == 0x0102 && !t.flags.cf && t.flags.pf && t.flags.zf && !t.flags.sf) =
          true := by decide +kernel

/-- H16: SAR AL, 1 (R289). -/
theorem test_H16 :
    ends [0xD0, 0xF8] (withRegs 0x0081 0 0 0 0x0100 0 0 0) (fun t =>
        t.regs.ax == 0x00C0 && t.ip == 0x0102 && t.flags.cf && t.flags.pf && !t.flags.zf && t.flags.sf &&
          !t.flags.ofl) = true := by decide +kernel

/-- H19: SAR AL, CL (CL=255) (R289). -/
theorem test_H19 :
    ends [0xD2, 0xF8] (withRegs 0x0080 0x00FF 0 0 0x0100 0 0 0) (fun t =>
        t.regs.ax == 0x00FF && t.ip == 0x0102 && t.flags.cf && t.flags.pf && !t.flags.zf && t.flags.sf) =
          true := by decide +kernel

/-- H21: ROL AL, 1 (R290). -/
theorem test_H21 :
    ends [0xD0, 0xC0] (State.withStatus (withRegs 0x0081 0 0 0 0x0100 0 0 0) 0b000110) (fun t =>
        t.regs.ax == 0x0003 && t.ip == 0x0102 && status t == 0b100111) = true := by decide +kernel

/-- H22: ROL AL, CL (CL=8: value back, CF=bit0) (R290). -/
theorem test_H22 :
    ends [0xD2, 0xC0] (withRegs 0x0081 0x0008 0 0 0x0100 0 0 0) (fun t =>
        t.ip == 0x0102 && t.flags.cf && !t.flags.pf && !t.flags.af && !t.flags.zf && !t.flags.sf) = true :=
          by decide +kernel

/-- H24: ROR AL, 1 (R291). -/
theorem test_H24 :
    ends [0xD0, 0xC8] (withRegs 0x0001 0 0 0 0x0100 0 0 0) (fun t =>
        t.regs.ax == 0x0080 && t.ip == 0x0102 && status t == 0b100001) = true := by decide +kernel

/-- H27: RCL AL, 1 (CF=1) (R292). -/
theorem test_H27 :
    ends [0xD0, 0xD0] (State.withStatus (withRegs 0x0080 0 0 0 0x0100 0 0 0) 0b100000) (fun t =>
        t.regs.ax == 0x0001 && t.ip == 0x0102 && status t == 0b100001) = true := by decide +kernel

/-- H29: RCL AX, CL (CL=17: full turn) (R292). -/
theorem test_H29 :
    ends [0xD3, 0xD0] (withRegs 0x1234 0x0011 0 0 0x0100 0 0 0) (fun t =>
        t.ip == 0x0102 && !t.flags.cf && !t.flags.pf && !t.flags.af && !t.flags.zf && !t.flags.sf) = true :=
          by decide +kernel

/-- H31: RCR AL, 1 (CF=1) (R293). -/
theorem test_H31 :
    ends [0xD0, 0xD8] (State.withStatus (withRegs 0x0081 0 0 0 0x0100 0 0 0) 0b100000) (fun t =>
        t.regs.ax == 0x00C0 && t.ip == 0x0102 && status t == 0b100000) = true := by decide +kernel

/-- H34: RCR WORD [BX], 1 (R293). -/
theorem test_H34 :
    ends [0xD1, 0x1F] (State.withBytes (State.withStatus (withRegs 0 0 0 0x0040 0x0100 0 0 0) 0b100000) [(0x30040,
      0x00), (0x30041, 0x00)]) (fun t =>
        t.ip == 0x0102 && t.read8 0x30041 == 0x80 && status t == 0b000001) = true := by decide +kernel

/-- R2: MOVSB (DF=1) (R313). -/
theorem test_R2 :
    ends [0xA4] (State.withBytes { (withRegs 0 0 0 0 0x0100 0 0x0010 0x0020) with flags := { base.flags with df :=
      true } } [(0x30010, 0xAB)]) (fun t =>
        t.regs.si == 0x000F && t.regs.di == 0x001F && t.ip == 0x0101 && t.read8 0x40020 == 0xAB) = true :=
          by decide +kernel

/-- R3: MOVSW (offsets wrap) (R313). -/
theorem test_R3 :
    ends [0xA5] (State.withBytes (withRegs 0 0 0 0 0x0100 0 0xFFFE 0xFFFF) [(0x3FFFE, 0x34), (0x3FFFF, 0x12)]) (fun
      t =>
        t.regs.si == 0x0000 && t.regs.di == 0x0001 && t.ip == 0x0101 && t.read8 0x4FFFF == 0x34 && t.read8
          0x50000 == 0x12) = true := by decide +kernel

/-- R4: ES: MOVSB (override moves the source only) (R313, R320). -/
theorem test_R4 :
    ends [0x26, 0xA4] (State.withBytes (withRegs 0 0 0 0 0x0100 0 0x0010 0x0020) [(0x40010, 0xCD)]) (fun t =>
        t.regs.si == 0x0011 && t.regs.di == 0x0021 && t.ip == 0x0102 && t.read8 0x40020 == 0xCD) = true :=
          by decide +kernel

/-- R5: REP MOVSB (CX=2): first step (R312, R313). -/
theorem test_R5 :
    ends [0xF3, 0xA4] (State.withBytes (withRegs 0 0x0002 0 0 0x0100 0 0x0010 0x0020) [(0x30010, 0xAB), (0x30011,
      0xAC)]) (fun t =>
        t.regs.cx == 0x0001 && t.regs.si == 0x0011 && t.regs.di == 0x0021 && t.ip == 0x0100 && t.read8
          0x40020 == 0xAB) = true := by decide +kernel

/-- R7: REP MOVSB (CX=0) (R319). -/
theorem test_R7 :
    ends [0xF3, 0xA4] (withRegs 0 0 0 0 0x0100 0 0x0010 0x0020) (fun t =>
        t.ip == 0x0102) = true := by decide +kernel

/-- R10: CMPSW (DF=1) (R314). -/
theorem test_R10 :
    ends [0xA7] (State.withBytes { (withRegs 0 0 0 0 0x0100 0 0x0010 0x0020) with flags := { base.flags with df :=
      true } } [(0x30010, 0x00), (0x30011, 0x80), (0x40020, 0x01), (0x40021, 0x00)]) (fun t =>
        t.regs.si == 0x000E && t.regs.di == 0x001E && t.ip == 0x0101 && status t == 0b011001) = true := by
          decide +kernel

/-- R12: REPE CMPSB (differ, CX=2) (R311, R314). -/
theorem test_R12 :
    ends [0xF3, 0xA6] (State.withBytes (withRegs 0 0x0002 0 0 0x0100 0 0x0010 0x0020) [(0x30010, 0x41), (0x40020,
      0x42)]) (fun t =>
        t.regs.cx == 0x0001 && t.regs.si == 0x0011 && t.regs.di == 0x0021 && t.ip == 0x0102 && status t ==
          0b111010) = true := by decide +kernel

/-- R16: SCASW (R315). -/
theorem test_R16 :
    ends [0xAF] (State.withBytes (withRegs 0x0001 0 0 0 0x0100 0 0 0x0020) [(0x40020, 0x02), (0x40021, 0x00)]) (fun
      t =>
        t.regs.di == 0x0022 && t.ip == 0x0101 && status t == 0b111010) = true := by decide +kernel

/-- R18: REPNE SCASB (match, CX=3) (R311, R315). -/
theorem test_R18 :
    ends [0xF2, 0xAE] (State.withBytes (withRegs 0x0041 0x0003 0 0 0x0100 0 0 0x0020) [(0x40020, 0x41)]) (fun t =>
        t.regs.cx == 0x0002 && t.regs.di == 0x0021 && t.ip == 0x0102 && status t == 0b010100) = true := by
          decide +kernel

/-- R19: DS: SCASB (override ignored: ES:DI) (R315, R320). -/
theorem test_R19 :
    ends [0x3E, 0xAE] (State.withBytes (withRegs 0x0041 0 0 0 0x0100 0 0 0x0020) [(0x40020, 0x41), (0x30020, 0x00)])
      (fun t =>
        t.regs.di == 0x0021 && t.ip == 0x0102 && status t == 0b010100) = true := by decide +kernel

/-- R21: LODSW (DF=1) (R316). -/
theorem test_R21 :
    ends [0xAD] (State.withBytes { (withRegs 0 0 0 0 0x0100 0 0x0010 0) with flags := { base.flags with df := true }
      } [(0x30010, 0x34), (0x30011, 0x12)]) (fun t =>
        t.regs.ax == 0x1234 && t.regs.si == 0x000E && t.ip == 0x0101) = true := by decide +kernel

/-- R24: STOSW (DF=1, DI=0) (R317). -/
theorem test_R24 :
    ends [0xAB] { (withRegs 0x0741 0 0 0 0x0100 0 0 0) with flags := { base.flags with df := true } } (fun t =>
        t.regs.di == 0xFFFE && t.ip == 0x0101 && t.read8 0x40000 == 0x41 && t.read8 0x40001 == 0x07) = true
          := by decide +kernel

/-- R25: REP STOSW into CGA (CX=0x2000): first step (R312, R317; 61_cga.md R462). -/
theorem test_R25 :
    ends [0xF3, 0xAB] { (withRegs 0x0720 0x2000 0 0 0x0100 0 0 0) with es := 0xB800 } (fun t =>
        t.regs.cx == 0x1FFF && t.regs.di == 0x0002 && t.ip == 0x0100 && t.read8 0xB8000 == 0x20 && t.read8
          0xBC001 == 0x07) = true := by decide +kernel

/-- C3: JMP SHORT -128 (R331). -/
theorem test_C3 :
    ends [0xEB, 0x80] base (fun t =>
        t.ip == 0x0082) = true := by decide +kernel

/-- C5: JMP NEAR (IP wraps) (R332). -/
theorem test_C5 :
    ends [0xE9, 0x00, 0xFF] base (fun t =>
        t.ip == 0x0003) = true := by decide +kernel

/-- C6: JMP AX (R333). -/
theorem test_C6 :
    ends [0xFF, 0xE0] (withRegs 0x5555 0 0 0 0x0100 0 0 0) (fun t =>
        t.ip == 0x5555) = true := by decide +kernel

/-- C8: JMP 0xF000:0xE05B (R334). -/
theorem test_C8 :
    ends [0xEA, 0x5B, 0xE0, 0x00, 0xF0] base (fun t =>
        t.cs == 0xF000 && t.ip == 0xE05B) = true := by decide +kernel

/-- C9: JMP FAR [BX] (R335). -/
theorem test_C9 :
    ends [0xFF, 0x2F] (State.withBytes (withRegs 0 0 0 0x0010 0x0100 0 0 0) [(0x30010, 0x00), (0x30011, 0x02),
      (0x30012, 0x00), (0x30013, 0x50)]) (fun t =>
        t.cs == 0x5000 && t.ip == 0x0200) = true := by decide +kernel

/-- C10: CALL +0x10 (R336). -/
theorem test_C10 :
    ends [0xE8, 0x10, 0x00] base (fun t =>
        t.regs.sp == 0x00FE && t.ip == 0x0113 && t.read8 0x200FE == 0x03 && t.read8 0x200FF == 0x01) = true
          := by decide +kernel

/-- C12: CALL [BX] (R337). -/
theorem test_C12 :
    ends [0xFF, 0x17] (State.withBytes (withRegs 0 0 0 0x0010 0x0100 0 0 0) [(0x30010, 0x00), (0x30011, 0x02)]) (fun
      t =>
        t.regs.sp == 0x00FE && t.ip == 0x0200 && t.read8 0x200FE == 0x02 && t.read8 0x200FF == 0x01) = true
          := by decide +kernel

/-- C13: CALL 0x2000:0x0010 (R338). -/
theorem test_C13 :
    ends [0x9A, 0x10, 0x00, 0x00, 0x20] base (fun t =>
        t.regs.sp == 0x00FC && t.cs == 0x2000 && t.ip == 0x0010 && t.read8 0x200FC == 0x05 && t.read8
          0x200FD == 0x01 && t.read8 0x200FE == 0x00 && t.read8 0x200FF == 0x10) = true := by decide +kernel

/-- C14: CALL FAR [BX] (R339). -/
theorem test_C14 :
    ends [0xFF, 0x1F] (State.withBytes (withRegs 0 0 0 0x0010 0x0100 0 0 0) [(0x30010, 0x00), (0x30011, 0x02),
      (0x30012, 0x00), (0x30013, 0x50)]) (fun t =>
        t.regs.sp == 0x00FC && t.cs == 0x5000 && t.ip == 0x0200 && t.read8 0x200FC == 0x02 && t.read8
          0x200FD == 0x01 && t.read8 0x200FE == 0x00 && t.read8 0x200FF == 0x10) = true := by decide +kernel

/-- C16: RET 4 (R341). -/
theorem test_C16 :
    ends [0xC2, 0x04, 0x00] (State.withBytes (withRegs 0 0 0 0 0x00FA 0 0 0) [(0x200FA, 0x03), (0x200FB, 0x01)])
      (fun t =>
        t.regs.sp == 0x0100 && t.ip == 0x0103) = true := by decide +kernel

/-- C18: RETF 2 (R343). -/
theorem test_C18 :
    ends [0xCA, 0x02, 0x00] (State.withBytes (withRegs 0 0 0 0 0x00FA 0 0 0) [(0x200FA, 0x05), (0x200FB, 0x01),
      (0x200FC, 0x00), (0x200FD, 0x50)]) (fun t =>
        t.regs.sp == 0x0100 && t.cs == 0x5000 && t.ip == 0x0105) = true := by decide +kernel

/-- C19: JZ +5 (ZF=1: taken) (R348). -/
theorem test_C19 :
    ends [0x74, 0x05] (State.withStatus base 0b000100) (fun t =>
        t.ip == 0x0107) = true := by decide +kernel

/-- C22: JL -4 (SF=1, OF=1: not taken) (R356). -/
theorem test_C22 :
    ends [0x7C, 0xFC] (State.withStatus base 0b000011) (fun t =>
        t.ip == 0x0102) = true := by decide +kernel

/-- C24: JA +2 (CF=0, ZF=1: not taken) (R351). -/
theorem test_C24 :
    ends [0x77, 0x02] (State.withStatus base 0b000100) (fun t =>
        t.ip == 0x0102) = true := by decide +kernel

/-- C25: JG +2 (ZF=0, SF=OF: taken) (R359). -/
theorem test_C25 :
    ends [0x7F, 0x02] (State.withStatus base 0b000011) (fun t =>
        t.ip == 0x0104) = true := by decide +kernel

/-- C29: LOOP -2 (CX=2) (R360). -/
theorem test_C29 :
    ends [0xE2, 0xFE] (withRegs 0 0x0002 0 0 0x0100 0 0 0) (fun t =>
        t.regs.cx == 0x0001 && t.ip == 0x0100) = true := by decide +kernel

/-- C31: LOOP -2 (CX=0: wraps to FFFF, taken) (R360). -/
theorem test_C31 :
    ends [0xE2, 0xFE] base (fun t =>
        t.regs.cx == 0xFFFF && t.ip == 0x0100) = true := by decide +kernel

/-- C33: LOOPZ -2 (CX=5, ZF=1: taken) (R361). -/
theorem test_C33 :
    ends [0xE1, 0xFE] (State.withStatus (withRegs 0 0x0005 0 0 0x0100 0 0 0) 0b000100) (fun t =>
        t.regs.cx == 0x0004 && t.ip == 0x0100) = true := by decide +kernel

/-- C34: LOOPNZ -2 (CX=5, ZF=0: taken) (R362). -/
theorem test_C34 :
    ends [0xE0, 0xFE] (withRegs 0 0x0005 0 0 0x0100 0 0 0) (fun t =>
        t.regs.cx == 0x0004 && t.ip == 0x0100) = true := by decide +kernel

/-- C36: JCXZ +8 (CX=0: taken) (R363). -/
theorem test_C36 :
    ends [0xE3, 0x08] base (fun t =>
        t.ip == 0x010A) = true := by decide +kernel

/-- C38: INT 0x21 (R364; 60_exceptions.md R404). -/
theorem test_C38 :
    ends [0xCD, 0x21] (State.withBytes (State.withStatus { base with flags := { base.flags with ifl := true } }
      0b100000) [(0x00084, 0x60), (0x00085, 0x14), (0x00086, 0x19), (0x00087, 0x00)]) (fun t =>
        t.regs.sp == 0x00FA && t.cs == 0x0019 && t.ip == 0x1460 && t.read8 0x200FA == 0x02 && t.read8
          0x200FB == 0x01 && t.read8 0x200FC == 0x00 && t.read8 0x200FD == 0x10 && t.read8 0x200FE == 0x03
          && t.read8 0x200FF == 0xF2 && !t.flags.ifl) = true := by decide +kernel

/-- C39: INT3 (R365). -/
theorem test_C39 :
    ends [0xCC] (State.withBytes base [(0x0000C, 0x00), (0x0000D, 0x01), (0x0000E, 0x00), (0x0000F, 0x70)]) (fun t =>
        t.regs.sp == 0x00FA && t.cs == 0x7000 && t.ip == 0x0100 && t.read8 0x200FA == 0x01 && t.read8
          0x200FB == 0x01 && t.read8 0x200FC == 0x00 && t.read8 0x200FD == 0x10 && t.read8 0x200FE == 0x02
          && t.read8 0x200FF == 0xF0) = true := by decide +kernel

/-- C40: INTO (OF=0) (R366). -/
theorem test_C40 :
    ends [0xCE] base (fun t =>
        t.ip == 0x0101) = true := by decide +kernel

/-- C41: INTO (OF=1) (R366). -/
theorem test_C41 :
    ends [0xCE] (State.withBytes (State.withStatus base 0b000001) [(0x00010, 0x34), (0x00011, 0x12), (0x00012,
      0x00), (0x00013, 0x80)]) (fun t =>
        t.regs.sp == 0x00FA && t.cs == 0x8000 && t.ip == 0x1234 && t.read8 0x200FA == 0x01 && t.read8
          0x200FB == 0x01 && t.read8 0x200FC == 0x00 && t.read8 0x200FD == 0x10 && t.read8 0x200FE == 0x02
          && t.read8 0x200FF == 0xF8) = true := by decide +kernel

/-- C43: IRET (image 0xFFFF minus TF) (R367). -/
theorem test_C43 :
    ends [0xCF] (State.withBytes (withRegs 0 0 0 0 0x00FA 0 0 0) [(0x200FA, 0x00), (0x200FB, 0x02), (0x200FC, 0x00),
      (0x200FD, 0x30), (0x200FE, 0xFF), (0x200FF, 0xFE)]) (fun t =>
        t.regs.sp == 0x0100 && t.cs == 0x3000 && t.ip == 0x0200 && t.flags.ifl && t.flags.df && status t ==
          0b111111) = true := by decide +kernel

/-- X1: CLC (R371). -/
theorem test_X1 :
    ends [0xF8] (State.withStatus base 0b100100) (fun t =>
        t.ip == 0x0101 && status t == 0b000100) = true := by decide +kernel

/-- X2: STC (R372). -/
theorem test_X2 :
    ends [0xF9] base (fun t =>
        t.ip == 0x0101 && status t == 0b100000) = true := by decide +kernel

/-- X3: CMC (R373). -/
theorem test_X3 :
    ends [0xF5] (State.withStatus base 0b100000) (fun t =>
        t.ip == 0x0101 && status t == 0b000000) = true := by decide +kernel

/-- X4: CLD (R374). -/
theorem test_X4 :
    ends [0xFC] { base with flags := { base.flags with df := true } } (fun t =>
        t.ip == 0x0101 && !t.flags.df) = true := by decide +kernel

/-- X5: STD (R375). -/
theorem test_X5 :
    ends [0xFD] base (fun t =>
        t.ip == 0x0101 && t.flags.df) = true := by decide +kernel

/-- X6: CLI (R376). -/
theorem test_X6 :
    ends [0xFA] { base with flags := { base.flags with ifl := true } } (fun t =>
        t.ip == 0x0101 && !t.flags.ifl) = true := by decide +kernel

/-- X7: STI (R377). -/
theorem test_X7 :
    ends [0xFB] base (fun t =>
        t.ip == 0x0101 && t.flags.ifl) = true := by decide +kernel

/-- X8: HLT (IF=0) (R378; 60_exceptions.md R409). -/
theorem test_X8 :
    ends [0xF4] base (fun t =>
        t.ip == 0x0101 && t.ended && !t.halt) = true := by decide +kernel

/-- X9: HLT (IF=1) (R378). -/
theorem test_X9 :
    ends [0xF4] { base with flags := { base.flags with ifl := true } } (fun t =>
        t.ip == 0x0101 && t.halt) = true := by decide +kernel

/-- X10: NOP (R379). -/
theorem test_X10 :
    ends [0x90] base (fun t =>
        t.ip == 0x0101) = true := by decide +kernel

/-- X12: ESC 0, [BX+SI+0x1234] (R381). -/
theorem test_X12 :
    ends [0xD8, 0x80, 0x34, 0x12] base (fun t =>
        t.ip == 0x0104) = true := by decide +kernel

/-- X14: LOCK XCHG [BX], AL (R382; 40_data_transfer.md R215). -/
theorem test_X14 :
    ends [0xF0, 0x86, 0x07] (State.withBytes (withRegs 0x0001 0 0 0x0010 0x0100 0 0 0) [(0x30010, 0x00)]) (fun t =>
        t.regs.ax == 0x0000 && t.ip == 0x0103 && t.read8 0x30010 == 0x01) = true := by decide +kernel

/-- X15: REP NOP (repeat prefix ignored) (43_string.md R311). -/
theorem test_X15 :
    ends [0xF3, 0x90] (withRegs 0 0x0005 0 0 0x0100 0 0 0) (fun t =>
        t.ip == 0x0102) = true := by decide +kernel

/-- X16: CS: SS: MOV AL, [BX] (last override wins) (R383). -/
theorem test_X16 :
    ends [0x2E, 0x36, 0x8A, 0x07] (State.withBytes (withRegs 0 0 0 0x0010 0x0100 0 0 0) [(0x20010, 0x77), (0x10010,
      0x11)]) (fun t =>
        t.regs.ax == 0x0077 && t.ip == 0x0104) = true := by decide +kernel

/-- X17: ES: MOV AL, BL (override without memory operand) (R383). -/
theorem test_X17 :
    ends [0x26, 0x8A, 0xC3] (withRegs 0 0 0 0x005A 0x0100 0 0 0) (fun t =>
        t.regs.ax == 0x005A && t.ip == 0x0103) = true := by decide +kernel

/-- X19: 0F (invalid) (30_encoding.md R160). -/
theorem test_X19 :
    step ((base : State).placeCode 0x0100 [0x0F, 0]) = .fault .invalidOpcode := by rfl

/-! ### The buses and the devices (96_test_vectors_2.md 2.9 to 2.11) -/

/-- B1, B2: an install over an owned address fails. -/
theorem test_B2 :
    (match Platform.bare.installMemoryDevice .ram 0x00000 0x9FFFF with
      | .error _ => false
      | .ok p =>
        memOwner p.memMap 0x9FFFF == some .ram && memOwner p.memMap 0xA0000 == none &&
          match p.installMemoryDevice .rom 0x9FFFF 0xA0FFF with
          | .error e => e == .addressOverlap
          | .ok _ => false) = true := by decide +kernel

/-- B3, B4, B6: open bus reads FFh and drops writes; ROM drops writes. -/
theorem test_B4_B6 :
    (let s : State := { base with memMap := [⟨0xF0000, 0xFFFFF, .rom⟩], mem := [(0xF0000, 0xEA)] }
    (s.write8 0xA0000 0x12).read8 0xA0000 == 0xFF && (s.write8 0xF0000 0x12).read8 0xF0000 == 0xEA) = true := by
  decide +kernel

/-- B11: a port install over the CGA's last port fails. -/
theorem test_B11 :
    (match ({ Platform.bare with ioMap := defaultIoMap } : Platform).installIoDevice .pic 0x3DF 0x3E0 with
      | .error e => e == .portOverlap
      | .ok _ => false) = true := by decide +kernel

/-- The owner tables after reset are what the installs of the base state's devices leave (R86, R96, R461, R463). -/
theorem test_default_maps :
    (((((Platform.bare.installMemoryDevice .ram 0x00000 0xB7FFF).bind fun p =>
      p.installMemoryDevice .cga 0xB8000 0xBFFFF).bind fun p =>
      p.installMemoryDevice .ram 0xC0000 0xFFFFF).bind fun p => p.installIoDevice .pic 0x20 0x21).bind fun p =>
      p.installIoDevice .cga 0x3D0 0x3DF) = .ok ⟨defaultMemMap, defaultIoMap, [], []⟩ := by rfl

/-- An install after `reset()` is refused (U23). -/
theorem test_install_after_reset :
    base.installMemoryDevice .rom 0xF0000 0xFFFFF = .error .afterReset ∧
      base.installIoDevice (.other 3) 0x60 0x63 = .error .afterReset ∧ base.installHook 0x10 = .error .afterReset :=
  ⟨rfl, rfl, rfl⟩

/-! ### The platform's own devices (R10, R105) -/

/-- `INC WORD [BX]` over a bus with one device of the platform at every address but the code's: the low byte and the high
byte read, then written, and the two bytes of the instruction fetched before (here from RAM). -/
theorem test_device_rmw :
    ends [0xFF, 0x07]
      { withRegs 0 0 0 0x0040 0x0100 0 0 0 with
        memMap := [⟨0x10000, 0x1FFFF, .ram⟩, ⟨0x00000, 0xFFFFF, .other 7⟩] }
      (fun t =>
        match t.devices with
        | [.step _, .write 7 0x30041 _, .write 7 0x30040 _, .read 7 0x30041, .read 7 0x30040, .reset] =>
          true
        | _ => false) = true := by decide +kernel

/-- `IN AX, DX` at the last port of one device and the first of another. -/
theorem test_device_ports :
    ends [0xED]
      { withRegs 0 0 0x0063 0 0x0100 0 0 0 with ioMap := [⟨0x60, 0x63, .other 1⟩, ⟨0x64, 0x64, .other 2⟩] }
      (fun t =>
        match t.devices with
        | [.step _, .portIn 2 0x0064, .portIn 1 0x0063, .reset] => true
        | _ => false) = true := by decide +kernel

/-- I2, I3, I5, I6: a request, ICW1, ICW2 and ICW4. -/
theorem test_I6 :
    (let p := ((base.pic.raiseIrq 3).portOut 0x20 0x13).raiseIrq 1
    let q := (p.portOut 0x21 0x0B).portOut 0x21 0x09
    (base.pic.raiseIrq 3).nextPending == some 0x0B && p.irr == 0x02 && p.nextPending == none && q.base == 0x08 &&
      q.init == .ready && q.nextPending == some 0x09) = true := by decide +kernel

/-- I10, I11, I14: a higher line nests, and a non-specific EOI clears the lowest line in service. -/
theorem test_I14 :
    (let p : Pic := { base.pic with irr := 0x43, isr := 0x10, imr := 0x02 }
    let q := ((p.ack 0x08).2.portOut 0x21 0x00).portOut 0x20 0x20
    p.nextPending == some 0x08 && (p.ack 0x08).2.isr == 0x11 && q.isr == 0x10 && q.nextPending == some 0x09) = true := by
  decide +kernel

/-- I16, I20: a specific EOI clears its line; an acknowledgement of a request that has gone is the spurious vector. -/
theorem test_I16_I20 :
    (let p : Pic := { base.pic with irr := 0x40, isr := 0x12 }
    (p.portOut 0x20 0x64).isr == 0x02 && (p.ack 0x0D).1 == 0x0F) = true := by decide +kernel

/-- G3, G5, G6: the alias of video memory, and the cursor registers through two pairs of ports. -/
theorem test_G3_G6 :
    (let s := (base.portOut16 0x3D4 0x010E).portOut8 0x3D0 0x0F
    let t := s.portOut8 0x3D7 0x40
    (base.write8 0xBFFFF 0x99).read8 0xBBFFF == 0x99 && t.cga.cursorPos == 0x0140 && (t.portIn8 0x3D5).1 == 0x40) =
      true := by decide +kernel

/-- G8, G9: bit 5 of register 0Ah hides the cursor. -/
theorem test_G9 :
    (let s := base.portOut16 0x3D4 0x200A
    !s.cga.cursorVisible && (s.portOut8 0x3D5 0x06).cga.cursorVisible) = true := by decide +kernel

/-- G11: one scanline sets bit 0 of the status, and the first read of it clears it. -/
theorem test_G11 :
    (let s := base.stepPeripherals 31469
    let t := (s.portIn8 0x3DA).2
    s.cga.scanline.val == 1 && (s.portIn8 0x3DA).1 == 0x01 && (t.portIn8 0x3DA).1 == 0x00) = true := by decide +kernel

/-- G12, G14: line 480 is in retrace; the counter wraps at 525. -/
theorem test_G14 :
    (({ base.cga with scanline := 479 }.scanlineTurn).status == 0x09 &&
      ({ base.cga with scanline := 524 }.scanlineTurn).status == 0x01 &&
      ({ base.cga with scanline := 524 }.scanlineTurn).scanline.val == 0) = true := by decide +kernel

/-- G22, G24: medium-resolution pixels, the odd line from the second 8 KiB. -/
theorem test_G22_G24 :
    (let p := Cga.snapshot
      { base.cga with modeCtrl := 0x0A, colorCtrl := 0x01, vram := [(0, 0x1B), (8192, 0xC0)] }
    pixelColour p false 0 0 == Config.palette16 1 && pixelColour p false 2 0 == Config.palette16 2 &&
      pixelColour p false 6 0 == Config.palette16 6 && pixelColour p false 0 1 == Config.palette16 6 &&
      pixelColour p false 2 1 == Config.palette16 1) = true := by decide +kernel

/-- G25: high-resolution pixels, leftmost bit first. -/
theorem test_G25 :
    (let p := Cga.snapshot { base.cga with modeCtrl := 0x1A, vram := [(0, 0x81)] }
    pixelColour p false 0 0 == Config.palette16 15 && pixelColour p false 1 0 == Config.palette16 0 &&
      pixelColour p false 7 0 == Config.palette16 15) = true := by decide +kernel

/-- G27: a tick with nothing dirty and the same blink phase renders nothing. -/
theorem test_G27 :
    ({ base.cga with dirty := false, lastBlinkPhase := true } : Cga).renderTick true =
      { base.cga with dirty := false, lastBlinkPhase := true, blinkPhase := true } := by rfl

/-- R529(d): the wait of the render task ends between the two bytes of `MOV [0x0000], AX` into a text cell; the frame is
rendered with the new character, and after the store the cell has the new attribute too and the flag is set again. -/
theorem test_torn_store :
    ({ base with cga := { base.cga with tickWait := 1 } } : State).write16 0xB8000 0x0741 =
      (let s := ({ base with cga := { base.cga with tickWait := 1 } } : State).write8 0xB8000 0x41
      { s with cga := s.cga.moment.writeByte 0xB8001 0x07 }) ∧
      (({ base with cga := { base.cga with tickWait := 1 } } : State).write8 0xB8000 0x41).cga.tickWait = 0 ∧
      (({ base with cga := { base.cga with tickWait := 1 } } : State).write8 0xB8000 0x41).cga.vram = [(0, 0x41)] := by
  exact ⟨rfl, by decide +kernel, by decide +kernel⟩

/-- Row 14 of program P4: a request is acknowledged out of `HLT`, and the first instruction of the handler runs in the
same step. -/
theorem test_P4_step_14 :
    ends [0x90]
      (State.withBytes
        { base with flags := { base.flags with ifl := true }, halt := true, inputs := [⟨[0], 0⟩] }
        [(0x00020, 0x00), (0x00021, 0x03), (0x00022, 0x00), (0x00023, 0x10), (0x10300, 0x40)])
      (fun t => t.ip == 0x0301 && t.regs.sp == 0x00FA && t.regs.ax == 1 && !t.halt && t.pic.isr == 0x01) = true := by
  decide +kernel

/-! ### Every obligation with hypotheses: states and operands that meet them -/

/-- `exec` or `step` answered a next state. -/
def answers (r : Result) : Bool :=
  match r with
  | .next _ => true
  | _ => false

theorem exists_of_answers {r : Result} (h : answers r = true) : ∃ t, r = .next t := by
  cases r with
  | next t => exact ⟨t, rfl⟩
  | fault e => simp [answers] at h
  | refused e => simp [answers] at h

theorem test_meets_DecodeInvertsEncode : Instr.wf (.movRm16R16 (.mem (.based .bp (.d8 0xFE))) .bx) = true := rfl

theorem test_meets_EncodeInvertsDecode :
    decode [0x8B, 0x46, 0xFE, 0x90] = .ok (.movR16Rm16 .ax (.mem (.based .bp (.d8 0xFE))), [0x90]) := rfl

theorem test_meets_InvalidEncodings :
    ([1, 2, 3, 4] : List Byte).length = 4 ∧ invalidEncoding 0x8E 0xC8 = true ∧ invalidEncoding 0x8E 0xC0 = false ∧
      invalidEncoding 0xFF 0xD8 = true ∧ invalidEncoding 0xFF 0x18 = false ∧ invalidEncoding 0xD0 0xF0 = true ∧
      invalidEncoding 0x70 0x00 = false ∧ invalidEncoding 0x6F 0x00 = true := by decide

/-- `NOP` at the reset vector. -/
def nopAtReset : State := State.reset.withFetchWord 8 0x90

theorem test_meets_StepKeepsInvariant : Inv nopAtReset ∧ ∃ t, step nopAtReset = .next t := by
  refine ⟨⟨⟨by decide +kernel, by decide +kernel, ?_⟩, rfl, by decide +kernel⟩,
    exists_of_answers (by decide +kernel)⟩
  exact ⟨by decide +kernel, by decide +kernel, by decide +kernel, by decide +kernel, by decide +kernel, by decide +kernel,
    Or.inl (by decide +kernel)⟩

/-- Whether the next n bytes that fetching reads are an instruction, this one. -/
def fetches (s : State) (n : Nat) (i : Instr) : Bool :=
  match decode (s.codeBytes n) with
  | .ok (j, []) => i == j
  | _ => false

theorem decode_of_fetches {s : State} {n : Nat} {i : Instr} (h : fetches s n i = true) :
    decode (s.codeBytes n) = .ok (i, []) := by
  unfold fetches at h
  split at h
  · rename_i j hd
    rw [hd, show i = j by simpa using h]
  · simp at h

theorem test_meets_StepRunsDecodedInstruction :
    nopAtReset.ended = false ∧ nopAtReset.halt = false ∧ nopAtReset.flags.ifl = false ∧
      decode (nopAtReset.codeBytes 1) = .ok (.nop, []) ∧ Instr.isPrefix .nop = false :=
  ⟨rfl, rfl, rfl, decode_of_fetches (by decide +kernel), rfl⟩

/-- Interrupts enabled, and nothing requested: the other way to meet the premise on requests. -/
theorem test_meets_StepRunsDecodedInstruction_enabled :
    (let s := { nopAtReset with flags := { nopAtReset.flags with ifl := true } }
    s.flags.ifl && s.takeInput.pic.nextPending == none && fetches s 1 .nop) = true := by decide +kernel

/-- `CS: SS: NOP` in the base state. -/
def prefixed : State := base.placeCode 0x0100 [0x2E, 0x36, 0x90]

theorem test_meets_PrefixesGather :
    ([Instr.prefixCs, .prefixSs].all Instr.isPrefix && decide (2 < prefixLimit) &&
      prefixed.codeBytes 2 == [Instr.prefixCs, .prefixSs].flatMap encode && fetches (prefixed.fetched 2) 1 .nop &&
      !Instr.isPrefix .nop) = true := by decide +kernel

theorem test_meets_InterruptCheckAcknowledges :
    (let s := { base with flags := { base.flags with ifl := true }, pic := base.pic.raiseIrq 7 }
    !base.flags.ifl && s.flags.ifl && s.pic.nextPending == some 0x0F && s.pic.base &&& 7 == 0 && !s.ended) = true := by
  decide +kernel

theorem test_meets_HltHaltsOrEnds :
    (let s := { base with flags := { base.flags with ifl := true }, halt := true }
    s.flags.ifl && !base.flags.ifl && !s.ended && s.halt && s.pic.nextPending == none &&
      ({ base with ended := true } : State).ended) = true := by decide +kernel

theorem test_meets_InvalidOpcodeFaults :
    (let s := base.placeCode 0x0100 [0x0F, 0x00]
    !s.ended && !s.halt && !s.flags.ifl && s.codeBytes 2 == [0x0F, 0x00] && invalidEncoding 0x0F 0x00) = true := by
  decide +kernel

theorem test_meets_HalfRegistersAlias : Reg16.sp ≠ container .ah ∧ Reg16.cx ≠ container .bl := by decide

/-- Every branch: a range that is none, one that is owned in part, and one that is free. -/
theorem test_meets_InstallRoutesOrFails :
    (let p : Platform := { Platform.bare with memMap := [⟨0, 0x9FFFF, .ram⟩] }
    (match p.installMemoryDevice (.other 5) 0xF0000 0xFFFFF with
      | .ok q => memOwner q.memMap 0xF0000 == some (.other 5) && memOwner q.memMap 0xFFFFF == some (.other 5)
      | .error _ => false) &&
      (match p.installMemoryDevice .rom 0x9FFFF 0xFFFFF with
      | .ok _ => false
      | .error e => e == .addressOverlap && memOwner p.memMap 0x9FFFF == some .ram) &&
      (match p.installMemoryDevice .rom 0xFFFFF 0x100000 with
      | .ok _ => false
      | .error e => e == .badRange) &&
      (match p.installIoDevice .pic 0x20 0x21 with
      | .ok q => ioOwner q.ioMap 0x21 == some .pic && ioOwner q.ioMap 0x22 == none
      | .error _ => false) &&
      (match ({ p with ioMap := defaultIoMap } : Platform).installIoDevice .pic 0x21 0xFFFF with
      | .ok _ => false
      | .error e => e == .portOverlap && ioOwner defaultIoMap 0x21 == some .pic) &&
      (match p.installIoDevice .pic 0x21 0x20 with
      | .ok _ => false
      | .error e => e == .badRange)) = true := by decide +kernel

/-- An address and a port of every kind of owner, and the ports where the clauses of the owner table meet. -/
theorem test_meets_BusDefaults :
    (let m : List MemRegion := [⟨0, 0x9FFFF, .ram⟩, ⟨0xB8000, 0xBFFFF, .cga⟩, ⟨0xC8000, 0xC8FFF, .other 4⟩, ⟨0xF0000, 0xFFFFF, .rom⟩]
    let q : List IoRegion := defaultIoMap ++ [⟨0x60, 0x64, .other 9⟩]
    memOwner m 0x9FFFF == some .ram && memOwner m 0xF0000 == some .rom && memOwner m 0xB8000 == some .cga &&
      memOwner m 0xC8FFF == some (.other 4) && memOwner m 0xA0000 == none && ioOwner q 0x0020 == some .pic &&
      ioOwner q 0x03DF == some .cga && ioOwner q 0x0064 == some (.other 9) && ioOwner q 0x0065 == none &&
      ioOwner defaultIoMap 0x001F == none && ioOwner defaultIoMap 0x0021 == some .pic &&
      ioOwner defaultIoMap 0x0022 == none && ioOwner defaultIoMap 0x03CF == none &&
      ioOwner defaultIoMap 0x03D0 == some .cga && ioOwner defaultIoMap 0x03E0 == none) = true := by decide +kernel

theorem test_meets_CgaMemoryAliases :
    (memOwner base.memMap 0xB8000 == some .cga && memOwner base.memMap 0xBC000 == some .cga &&
      decide ((0xB8000 : Addr).toNat % 0x4000 = (0xBC000 : Addr).toNat % 0x4000) &&
      memOwner base.memMap 0xBFFFF == some .cga && memOwner base.memMap 0xB7FFF == some .ram &&
      decide ((0xBFFFF : Addr).toNat % 0x4000 ≠ (0xB8000 : Addr).toNat % 0x4000)) = true := by decide +kernel

theorem test_meets_EffectiveAddresses (s : State) :
    (EaBase.bp, s.regs.bp.toNat, SReg.ss) ∈
      [(EaBase.bxsi, s.regs.bx.toNat + s.regs.si.toNat, SReg.ds), (.bxdi, s.regs.bx.toNat + s.regs.di.toNat, .ds),
        (.bpsi, s.regs.bp.toNat + s.regs.si.toNat, .ss), (.bpdi, s.regs.bp.toNat + s.regs.di.toNat, .ss),
        (.si, s.regs.si.toNat, .ds), (.di, s.regs.di.toNat, .ds), (.bp, s.regs.bp.toNat, .ss),
        (.bx, s.regs.bx.toNat, .ds)] := by simp

theorem test_meets_CrtRegisterFile :
    (0x3D6 : Word) ∈ ([0x3D0, 0x3D2, 0x3D4, 0x3D6] : List Word) ∧
      (0x3D7 : Word) ∈ ([0x3D1, 0x3D3, 0x3D5, 0x3D7] : List Word) := by decide

theorem test_meets_CgaStatusAndControlPorts :
    (0x3DA : Word) ∈ ([0x3DA, 0x3DB, 0x3DC, 0x3DD, 0x3DE, 0x3DF] : List Word) ∧
      (0x3D8 : Word) ∈ ([0x3D0, 0x3D2, 0x3D4, 0x3D6, 0x3D8, 0x3D9, 0x3DB, 0x3DC, 0x3DD, 0x3DE, 0x3DF] : List Word) := by
  decide

/-- One period short by a nanosecond, and one whole period. -/
theorem test_meets_ScanlineAdvance :
    (31468 - base.cga.lastScanlineNs) / 31469 = 0 ∧ (31469 - base.cga.lastScanlineNs) / 31469 ≠ 0 := by decide +kernel

/-- The last pixels of the two graphics modes. -/
theorem test_meets_GraphicsSurfaces :
    (let p := Cga.snapshot { base.cga with modeCtrl := 0x1A }
    let q := Cga.snapshot { base.cga with modeCtrl := 0x0A }
    p.modeCtrl.getLsbD 1 && p.modeCtrl.getLsbD 4 && decide (639 < 640) && decide (199 < 200) && q.modeCtrl.getLsbD 1 &&
      !q.modeCtrl.getLsbD 4 && decide (319 < 320)) = true := by decide +kernel

/-- The last cell, line and column of the two text modes. -/
theorem test_meets_TextSurface :
    (let p := Cga.snapshot { base.cga with modeCtrl := 0x29 }
    let q := Cga.snapshot { base.cga with modeCtrl := 0x28 }
    !p.modeCtrl.getLsbD 1 && p.modeCtrl.getLsbD 0 && decide (24 < 25) && decide (7 < 8) && decide (79 < 80) &&
      !q.modeCtrl.getLsbD 1 && !q.modeCtrl.getLsbD 0 && decide (39 < 40)) = true := by decide +kernel

/-- Every branch of a tick and of a moment, and a store that the last clause is about. -/
theorem test_meets_RenderTickInvisible :
    (base.cga.dirty && !({ base.cga with dirty := false } : Cga).dirty && decide (true ≠ base.cga.lastBlinkPhase) &&
      decide (false = base.cga.lastBlinkPhase) && decide (base.cga.tickWait ≠ 0) &&
      decide (({ base.cga with tickWait := 0 } : Cga).tickWait = 0) && memOwner base.memMap 0xB8000 == some .cga &&
      memOwner base.memMap 0xB8001 == some .cga && decide (({ base.cga with tickWait := 1 } : Cga).tickWait = 1)) = true := by
  decide +kernel

theorem test_meets_PicSelectsLowestLine :
    (let p : Pic := { base.pic with irr := 0x88 }
    p.init == .ready && p.nextPending == some 0x0B && decide (PicInit.wantIcw2 ≠ .ready) &&
      p.irr.getLsbD ((0x0F : Byte).toNat % 8) && !p.irr.getLsbD ((0x08 : Byte).toNat % 8)) = true := by decide +kernel

theorem test_meets_PicCommandAndDataWords :
    ((0x13 : Byte).getLsbD 4 && !(0x0B : Byte).getLsbD 4 && (0x0B : Byte).getLsbD 3 && !(0x20 : Byte).getLsbD 4 &&
      !(0x20 : Byte).getLsbD 3 && base.pic.init == .ready &&
      (base.pic.writeCommand 0x11).init == .wantIcw2 &&
      ((base.pic.writeCommand 0x11).writeData 0x08).init == .wantIcw3 &&
      (((base.pic.writeCommand 0x11).writeData 0x08).writeData 0).init == .wantIcw4) = true := by decide +kernel

theorem test_meets_IntThenIretRestores :
    (!base.hooks.contains 0x21 && (entryCells base).all (Keeps base)) = true := by decide +kernel

theorem test_meets_SoftwareInterrupts :
    (!base.hooks.contains 0x21 && ({ base with hooks := [0x21] } : State).hooks.contains 0x21 && !base.flags.ofl &&
      (State.withStatus base 0b000001).flags.ofl) = true := by decide +kernel

theorem test_meets_Pops : Reg16.ax ≠ .sp ∧ (RM.mem (.direct 0x0040) : RM Reg16) ≠ .reg .sp := by decide

theorem test_meets_Exchanges :
    (Instr.xchgAxSp, Reg16.sp) ∈
      [(Instr.xchgAxCx, Reg16.cx), (.xchgAxDx, .dx), (.xchgAxBx, .bx), (.xchgAxSp, .sp), (.xchgAxBp, .bp),
        (.xchgAxSi, .si), (.xchgAxDi, .di)] := by decide

/-- Two pops of a far return over a bus that is all one device: `IP` and then `CS`, low byte first (R18, R342). -/
theorem test_far_return_events :
    busEvents { withRegs 0 0 0 0 0x0100 0 0 0 with memMap := [⟨0, 0xFFFFF, .other 7⟩] } .retf =
      [.read 7 0x20103, .read 7 0x20102, .read 7 0x20101, .read 7 0x20100] := by decide +kernel

/-- A repeat with `CX = 0` does nothing on the bus (R312). -/
theorem test_repeat_of_none_events :
    busEvents { base with memMap := [⟨0, 0xFFFFF, .other 7⟩], pend := { noPending with rep := some .rep },
                          regs := { base.regs with cx := 0 } } .movsb = [] := by decide +kernel

/-- `reset()` twice at the same time is `reset()` once, the first one included (R512). -/
theorem test_second_reset : State.reset.hostReset = State.reset := rfl

theorem test_meets_AddAndAdc (s : State) :
    (AluOp.adc, s.flags.cf) ∈ [(AluOp.add, false), (AluOp.adc, s.flags.cf)] ∧
      (AluOp.add, false) ∈ [(AluOp.add, false), (AluOp.adc, s.flags.cf)] := by simp

theorem test_meets_SubAndSbb (s : State) :
    (AluOp.sbb, s.flags.cf) ∈ [(AluOp.sub, false), (AluOp.sbb, s.flags.cf)] ∧
      (AluOp.sub, false) ∈ [(AluOp.sub, false), (AluOp.sbb, s.flags.cf)] := by simp

theorem test_meets_LogicalOperations :
    (AluOp.xor, Bool.xor) ∈ [(AluOp.and, Bool.and), (AluOp.or, Bool.or), (AluOp.xor, Bool.xor)] := by simp

/-- The largest quotients that fit (vectors A53, A55, A62, A63). -/
theorem test_meets_DivisionCompletes :
    (let s := withRegs 0xFE01 0 0 0x00FF 0x0100 0 0 0
    let t := withRegs 0x0001 0 0xFFFE 0xFFFF 0x0100 0 0 0
    let u := withRegs 0xFF81 0 0xFFFF 0x0001 0x0100 0 0 0
    decide ((s.rm8 (.reg .bl)).toNat ≠ 0) && decide (s.regs.ax.toNat / (s.rm8 (.reg .bl)).toNat ≤ 0xFF) &&
      decide ((t.rm16 (.reg .bx)).toNat ≠ 0) &&
      decide ((t.regs.dx.toNat * 65536 + t.regs.ax.toNat) / (t.rm16 (.reg .bx)).toNat ≤ 0xFFFF) &&
      decide ((u.rm8 (.reg .bl)).toInt ≠ 0) && decide (-128 < u.regs.ax.toInt.tdiv (u.rm8 (.reg .bl)).toInt) &&
      decide (u.regs.ax.toInt.tdiv (u.rm8 (.reg .bl)).toInt ≤ 127) && decide ((u.rm16 (.reg .bx)).toInt ≠ 0) &&
      decide (-32768 < (u.regs.dx ++ u.regs.ax).toInt.tdiv (u.rm16 (.reg .bx)).toInt) &&
      decide ((u.regs.dx ++ u.regs.ax).toInt.tdiv (u.rm16 (.reg .bx)).toInt ≤ 32767)) = true := by decide +kernel

/-- Divisors of 0, the smallest quotients that do not fit, and the signed quotients of exactly -128 and -32768. -/
theorem test_meets_DivideErrors :
    (let z := withRegs 0x1234 0 0 0 0x0100 0 0 0
    let s := withRegs 0x0100 0 0 0x0001 0x0100 0 0 0
    let t := withRegs 0x0000 0 0x0002 0x0002 0x0100 0 0 0
    let u := withRegs 0x8000 0 0 0x0001 0x0100 0 0 0
    let v := withRegs 0xFF7F 0 0 0x0001 0x0100 0 0 0
    let m := withRegs 0xFF80 0 0 0x0001 0x0100 0 0 0
    let n := withRegs 0x8000 0 0xFFFF 0x0001 0x0100 0 0 0
    decide ((z.rm8 (.reg .bl)).toNat = 0) && decide ((z.rm16 (.reg .bx)).toInt = 0) &&
      decide (0xFF < s.regs.ax.toNat / (s.rm8 (.reg .bl)).toNat) &&
      decide (0xFFFF < (t.regs.dx.toNat * 65536 + t.regs.ax.toNat) / (t.rm16 (.reg .bx)).toNat) &&
      decide (127 < s.regs.ax.toInt.tdiv (s.rm8 (.reg .bl)).toInt) &&
      decide (v.regs.ax.toInt.tdiv (v.rm8 (.reg .bl)).toInt < -128) &&
      decide (32767 < (u.regs.dx ++ u.regs.ax).toInt.tdiv (u.rm16 (.reg .bx)).toInt) &&
      decide (m.regs.ax.toInt.tdiv (m.rm8 (.reg .bl)).toInt = -128) &&
      decide ((n.regs.dx ++ n.regs.ax).toInt.tdiv (n.rm16 (.reg .bx)).toInt = -32768)) = true := by decide +kernel

theorem test_meets_AamAadCbwCwd : (0x0A : Byte).toNat ≠ 0 := by decide

theorem test_meets_Shifts (s : State) (rm : RM Reg8) :
    ShiftOp.sar ∈ [ShiftOp.shl, .shr, .sar] ∧
      (shiftRm8Cl .sar rm, (s.get8 .cl).toNat) ∈ [(shiftRm8One .sar rm, 1), (shiftRm8Cl .sar rm, (s.get8 .cl).toNat)] := by
  simp

theorem test_meets_Rotates (s : State) (rm : RM Reg16) :
    ShiftOp.rcr ∈ [ShiftOp.rol, .ror, .rcl, .rcr] ∧
      (shiftRm16Cl .rcr rm, (s.get8 .cl).toNat) ∈
        [(shiftRm16One .rcr rm, 1), (shiftRm16Cl .rcr rm, (s.get8 .cl).toNat)] := by simp

theorem test_meets_StringIterations : base.pend.rep = none := rfl

/-- `REP` pending with `CX` 0, 1 and 2. -/
theorem test_meets_RepeatedStrings :
    (let s := { withRegs 0 2 0 0 0x0100 0 0 0 with pend := ⟨none, some .repne, false, 0x0100⟩ }
    s.pend.rep == some .repne && isString .scasb && decide (s.regs.cx ≠ 0) && decide (s.regs.cx ≠ 1) &&
      decide (base.regs.cx = 0) && decide ((withRegs 0 1 0 0 0 0 0 0).regs.cx = 1)) = true := by decide +kernel

theorem test_meets_JumpsAndLoops (s : State) :
    (Instr.loopzRel8, s.flags.zf) ∈
      [(Instr.loopRel8, true), (.loopzRel8, s.flags.zf), (.loopnzRel8, !s.flags.zf)] := by simp

/-- A far jump changes `CS`; `POPF` sets `TF`; `HLT` in a halted state keeps `Halt`. -/
theorem test_meets_OnlyTheseWriteControlState :
    (∃ t, exec (.jmpFarPtr 0 0x2000) base = .next t ∧ t.cs ≠ base.cs) ∧
      (∃ t, exec .popf (State.withBytes base [(0x20100, 0x00), (0x20101, 0x01)]) = .next t ∧ t.flags.tf = true) ∧
      ∃ t, exec .nop { base with halt := true } = .next t ∧ t.halt = true :=
  ⟨⟨_, rfl, by decide⟩, ⟨_, rfl, by decide +kernel⟩, ⟨_, rfl, rfl⟩⟩

/-- A state from which a run never stops: halted with interrupts disabled. -/
def idle : Nat → State
  | 0 => { base with halt := true }
  | k + 1 =>
    match step (idle k) with
    | .next t => t
    | _ => idle k

/-- A halted step with no request it may see is a next state that is halted again. -/
theorem step_of_halted {s : State} (h : s.halt = true) (hi : s.flags.ifl = false) (he : s.ended = false) :
    ∃ t, step s = .next t ∧ t.halt = true ∧ t.flags.ifl = false ∧ t.ended = false := by
  refine ⟨(s.takeInput.counted.stepPeripherals s.nextInput.elapsedNs).renderMoment, ?_, h, hi, he⟩
  have hc : s.takeInput.interruptCheck = s.takeInput := by
    unfold State.interruptCheck
    rw [if_neg (by rw [show s.takeInput.flags = s.flags from rfl, hi]; simp)]
  have hp : s.takeInput.procStep = .next s.takeInput := by
    unfold State.procStep
    rw [if_neg (by decide), if_neg (by rw [show s.takeInput.ended = s.ended from rfl, he]; simp), if_neg (by simp [Config.debuggerPresent]), hc]
    unfold State.instrPhase
    rw [if_pos (show s.takeInput.halt = true from h)]
  unfold step State.turn
  rw [hp]
  simp only [State.afterStep]
  rw [if_neg (by rw [show s.takeInput.ended = s.ended from rfl, he]; simp)]

theorem test_meets_FairClocks : IsRun idle := by
  have key : ∀ k, (idle k).halt = true ∧ (idle k).flags.ifl = false ∧ (idle k).ended = false := by
    intro k
    induction k with
    | zero => exact ⟨rfl, rfl, rfl⟩
    | succ k ih =>
      obtain ⟨t, h1, h2⟩ := step_of_halted ih.1 ih.2.1 ih.2.2
      rw [show idle (k + 1) = t by simp [idle, h1]]
      exact h2
  intro k
  obtain ⟨t, h1, -⟩ := step_of_halted (key k).1 (key k).2.1 (key k).2.2
  rw [show idle (k + 1) = t by simp [idle, h1]]
  exact h1

/-- What a step hands the host: success for `NOP`, `CpuHalt` for `HLT` with `IF` clear, `InvalidOpcode` for 0Fh (R400, R409,
R410), and in the run that is over nothing. -/
theorem test_handed :
    ((base.withFetchWord 8 0x90).handed.map Prod.snd == some .success &&
      (base.withFetchWord 8 0xF4).handed.map Prod.snd == some .cpuHalt &&
      (base.withFetchWord 8 0x0F).handed.map Prod.snd == some .invalidOpcode &&
      ({ base with ended := true } : State).handed == none) = true := by decide +kernel

/-- The render task may still tick in the turn that ends the run: a first step that is `HLT` renders (R409, R480). -/
theorem test_tick_after_cpuHalt :
    (match step ({ base with cga := { base.cga with tickWait := 0 } }.withFetchWord 8 0xF4) with
    | .next t => decide (t.ended = true) && decide (t.cga.ticks = base.cga.ticks + 1)
    | _ => false) = true := by decide +kernel

/-! ### The placement of an instruction for the step -/

/-- The words the host places decode and run as the first instruction after reset: a prefix, a word with an operand and a
far transfer. -/
theorem test_withFetchWord :
    (decodeTableWord 16 0x89D8 == some (.movRm16R16 (.reg .ax) .bx) && decodeTableWord 8 0x9A == some (.callFarPtr 0 0) &&
      answers (step (State.reset.withFetchWord 16 0x89D8)) && answers (step (State.reset.withFetchWord 8 0xF3)) &&
      answers (step (State.reset.withFetchWord 16 0xEA00))) = true := by decide +kernel

end Sys2Proof.Machine.Tests
end

/-! SUPPORT. What each instruction does on the buses, in the terms of `busEvents` (20_memory.md R105): the shared shapes
of instructions first, then one case split over all of them. -/

namespace Sys2Proof.Machine

/-! ### Interrupts and hooks (R404, R411) -/

/-- An interrupt entry pushes three words and then reads the two of its vector (R404). -/
theorem State.interrupt_events (s : State) (n : Byte) : (s.interrupt n).devices = enters s n ++ s.devices := by
  unfold State.interrupt enters
  rw [← ivtAddr_add_two, ← ivtAddr_eq]
  simp [State.afterRead16_eq, State.push16_devices, pushes, BitVec.sub_sub]

/-- What one write of a hooked interrupt's handler does to the platform's devices. -/
def hostWriteEvents (map : List MemRegion) : HostWrite → List DeviceEvent
  | .mem a v => writeEvents map a v
  | .reg _ _ => []
  | .seg _ _ => []
  | .ip _ => []
  | .flags _ => []

theorem State.hostWrite_events (s : State) (w : HostWrite) :
    (s.hostWrite w).devices = hostWriteEvents s.memMap w ++ s.devices := by
  cases w with
  | mem a v => exact State.write8_devices ..
  | seg r v => exact State.setS_devices ..
  | reg r v => rfl
  | ip v => rfl
  | flags f => rfl

theorem State.hostWrite_memMap (s : State) (w : HostWrite) : (s.hostWrite w).memMap = s.memMap :=
  ((kept_hostSame s).hostWrite w (HostSame.refl s)).1

/-- A byte written is at most one event, so its order does not matter. -/
theorem hostWriteEvents_reverse (map : List MemRegion) (w : HostWrite) :
    (hostWriteEvents map w).reverse = hostWriteEvents map w := by
  cases w with
  | mem a v => simp only [hostWriteEvents, writeEvents]; split <;> rfl
  | reg r v => rfl
  | seg r v => rfl
  | ip v => rfl
  | flags f => rfl

theorem State.hostWrites_events (s : State) (ws : List HostWrite) :
    (s.hostWrites ws).devices = (ws.flatMap (hostWriteEvents s.memMap)).reverse ++ s.devices := by
  induction ws generalizing s with
  | nil => rfl
  | cons w ws ih =>
    rw [State.hostWrites, ih, State.hostWrite_memMap, State.hostWrite_events, List.flatMap_cons, List.reverse_append,
      hostWriteEvents_reverse, List.append_assoc]

theorem hookWrites_eq (s : State) (n : Byte) :
    hookWrites s n = ((hookHandler n s).flatMap (hostWriteEvents s.memMap)).reverse := by
  unfold hookWrites
  congr 2

/-- `INT n` is the writes of its hook, or the entry where there is none (R364, R411). -/
theorem State.softInterrupt_events (s : State) (n : Byte) :
    (s.softInterrupt n).devices = (if n ∈ s.hooks then hookWrites s n else enters s n) ++ s.devices := by
  unfold State.softInterrupt
  by_cases hn : n ∈ s.hooks
  · rw [if_pos (List.contains_iff_mem.2 hn), if_pos hn, hookWrites_eq]
    exact State.hostWrites_events ..
  · rw [if_neg (mt List.contains_iff_mem.1 hn), if_neg hn]
    exact State.interrupt_events ..

/-- `INTO` is the entry at vector 4 when `OF` is set (R366). -/
theorem interruptOnOverflow_events (s : State) :
    (if s.flags.ofl then s.interrupt 4 else s).devices = (if s.flags.ofl then enters s 4 else []) ++ s.devices := by
  cases s.flags.ofl
  · rfl
  · exact State.interrupt_events s 4

/-! ### Division (R256, R257, R262, R267) -/

/-- An instruction that raises a divide error when `p` holds, and otherwise leaves the devices alone. -/
theorem divideErrorIf_events (s : State) (p : Prop) [Decidable p] {t : State} (ht : t.devices = s.devices) :
    (if p then s.divideError else t).devices = dividesBadly s (decide p) ++ s.devices := by
  by_cases hp : p
  · simp only [hp, if_true, decide_true, dividesBadly]
    exact State.interrupt_events s 0
  · simp [hp, ht, dividesBadly]

theorem State.div8_events (s : State) (d : Byte) :
    (s.div8 d).devices =
      dividesBadly s (decide (d.toNat = 0 ∨ 0xFF < s.regs.ax.toNat / d.toNat)) ++ s.devices := by
  rw [State.div8, ← ite_or]
  exact divideErrorIf_events s _ rfl

theorem State.div16_events (s : State) (d : Word) :
    (s.div16 d).devices =
      dividesBadly s (decide (d.toNat = 0 ∨ 0xFFFF < (s.regs.dx.toNat * 65536 + s.regs.ax.toNat) / d.toNat)) ++
        s.devices := by
  rw [← State.dividend32_toNat, State.div16, ← ite_or]
  exact divideErrorIf_events s _ rfl

/-- When a signed division raises a divide error, in the terms of the model and in those of the claims (R257, D18). -/
theorem signedDivideError_eq {w v : Nat} (d : BitVec w) (q : Int) :
    decide (d.toNat = 0 ∨ idivOverflow v q = true) = (decide (d.toInt = 0) || Misfits v q) := by
  have hz : d.toInt = 0 ↔ d.toNat = 0 := by
    rw [← BitVec.toInt_zero (w := w), BitVec.toInt_inj, ← BitVec.toNat_inj, BitVec.toNat_zero]
  simp [hz, idivOverflow_eq]

theorem State.idiv8_events (s : State) (d : Byte) :
    (s.idiv8 d).devices =
      dividesBadly s (decide (d.toInt = 0) || Misfits 8 (s.regs.ax.toInt.tdiv d.toInt)) ++ s.devices := by
  rw [← signedDivideError_eq, State.idiv8, ← ite_or]
  exact divideErrorIf_events s _ rfl

theorem State.idiv16_events (s : State) (d : Word) :
    (s.idiv16 d).devices =
      dividesBadly s (decide (d.toInt = 0) || Misfits 16 ((s.regs.dx ++ s.regs.ax).toInt.tdiv d.toInt)) ++
        s.devices := by
  rw [← signedDivideError_eq, State.idiv16, ← ite_or]
  exact divideErrorIf_events s _ rfl


/-! ### Writes, pops and ports (R18, R98, R100, R201) -/

theorem State.jumpIf_devices (s : State) (c : Bool) (rel : Byte) : (s.jumpIf c rel).devices = s.devices := by
  cases c <;> rfl

theorem State.haltNow_devices (s : State) : s.haltNow.devices = s.devices := by
  unfold State.haltNow
  split <;> rfl

theorem State.portIn16_events (s : State) (p : Word) :
    (s.portIn16 p).2.devices = wordInEvents s.ioMap p ++ s.devices := by
  simp [State.portIn16, State.portIn8_events, wordInEvents]

theorem State.portOut16_events (s : State) (p v : Word) :
    (s.portOut16 p v).devices = wordOutEvents s.ioMap p v ++ s.devices := by
  simp [State.portOut16, State.portOut8_events, wordOutEvents]

theorem State.retFar_events (s : State) (n : Word) : (s.retFar n).devices = pops s 2 ++ s.devices := by
  simp [State.retFar, pops, State.stackAddr]

theorem State.interruptReturn_events (s : State) : s.interruptReturn.devices = pops s 3 ++ s.devices := by
  simp [State.interruptReturn, pops, State.stackAddr, BitVec.add_assoc]

theorem State.moffsAddr_eq (s : State) (off : Word) : s.moffsAddr off = lin (dataSegment s) off := by
  rw [State.moffsAddr, State.segOr_ds]

/-- The table entry `XLAT` reads, over numbers (R218). -/
theorem State.xlatAddr_eq (s : State) :
    s.xlatAddr = lin (dataSegment s) (BitVec.ofNat 16 (s.regs.bx.toNat + (s.get8 .al).toNat)) := by
  rw [State.xlatAddr, State.segOr_ds, BitVec.ofNat_add, BitVec.ofNat_toNat, BitVec.ofNat_toNat, BitVec.setWidth_eq]

/-! ### The single iterations of the string instructions (R313 to R317) -/

theorem State.movsb1_events (s : State) :
    s.movsb1.devices =
      writeEvents s.memMap (destinationAt s) (s.read8 (sourceAt s)) ++ readEvents s.memMap (sourceAt s) ++ s.devices := by
  rw [← State.srcAddr_eq, List.append_assoc]
  exact State.write8_devices (s.afterRead8 s.srcAddr) ..

theorem State.movsw1_events (s : State) :
    s.movsw1.devices =
      wordWriteEvents s.memMap (destinationAt s) (s.read16 (sourceAt s)) ++ wordReadEvents s.memMap (sourceAt s) ++
        s.devices := by
  rw [← State.srcAddr_eq, List.append_assoc]
  exact State.write16_devices (s.afterRead16 s.srcAddr) ..

/-! ### The shapes of instructions (R201, R266, R286) -/

/-- A byte operand read and then written with `f` of it, whatever flags and draws go with it. -/
theorem accesses_update8 {i : Instr} {s u : State} {rm : RM Reg8} {f : Byte → Byte} {v : Byte}
    (he : exec i s = .next (u.store8 (s.place rm) v)) (hu : u.devices = reads8 s rm ++ s.devices)
    (hm : u.memMap = s.memMap) (hv : v = f (s.rm8 rm)) : Accesses i s (updates8 s rm f) := by
  refine ⟨_, he, ?_⟩
  simp only [State.store8_devices, hu, hm, hv, updates8, writes8, List.append_assoc]

/-- A word operand read and then written with `f` of it, whatever flags and draws go with it. -/
theorem accesses_update16 {i : Instr} {s u : State} {rm : RM Reg16} {f : Word → Word} {v : Word}
    (he : exec i s = .next (u.store16 (s.place rm) v)) (hu : u.devices = reads16 s rm ++ s.devices)
    (hm : u.memMap = s.memMap) (hv : v = f (s.rm16 rm)) : Accesses i s (updates16 s rm f) := by
  refine ⟨_, he, ?_⟩
  simp only [State.store16_devices, hu, hm, hv, updates16, writes16, List.append_assoc]

/-- A string instruction under its repeat prefix, given what its single iteration does (R312). -/
theorem accesses_repeated {i : Instr} {s : State} {once : State → State} {es : List DeviceEvent}
    (he : exec i s = .next (s.repeated once)) (h : (once s).devices = es ++ s.devices) :
    Accesses i s (element s es) :=
  ⟨_, he, State.repeated_events h⟩

/-- A comparing string instruction under its repeat prefix, given what its single iteration does (R312). -/
theorem accesses_repeatedCompare {i : Instr} {s : State} {once : State → State} {es : List DeviceEvent}
    (he : exec i s = .next (s.repeatedCompare once)) (h : (once s).devices = es ++ s.devices) :
    Accesses i s (element s es) :=
  ⟨_, he, State.repeatedCompare_events h⟩

/-- Every instruction does on the buses what `busEvents` says (R105). -/
theorem accesses_busEvents (i : Instr) (s : State) : Accesses i s (busEvents s i) := by
  unfold busEvents
  cases i with
  -- an operand read and written back (R249 to R253, R266, R281, R286)
  | addRm8R8 | addRm8Imm8 | addRm8Imm8Alias | incRm8 => exact accesses_update8 rfl rfl rfl (aluResult_add _ _ false)
  | addRm16R16 | addRm16Imm16 | addRm16Imm8 | incRm16 => exact accesses_update16 rfl rfl rfl (aluResult_add _ _ false)
  | subRm8R8 | subRm8Imm8 | subRm8Imm8Alias | decRm8 => exact accesses_update8 rfl rfl rfl (aluResult_sub _ _ false)
  | subRm16R16 | subRm16Imm16 | subRm16Imm8 | decRm16 => exact accesses_update16 rfl rfl rfl (aluResult_sub _ _ false)
  | negRm8 => exact accesses_update8 rfl rfl rfl ((aluResult_sub _ _ false).trans (BitVec.zero_sub _))
  | negRm16 => exact accesses_update16 rfl rfl rfl ((aluResult_sub _ _ false).trans (BitVec.zero_sub _))
  | adcRm8R8 | adcRm8Imm8 | adcRm8Imm8Alias => exact accesses_update8 rfl rfl rfl (aluResult_adc ..)
  | adcRm16R16 | adcRm16Imm16 | adcRm16Imm8 => exact accesses_update16 rfl rfl rfl (aluResult_adc ..)
  | sbbRm8R8 | sbbRm8Imm8 | sbbRm8Imm8Alias => exact accesses_update8 rfl rfl rfl (aluResult_sbb ..)
  | sbbRm16R16 | sbbRm16Imm16 | sbbRm16Imm8 => exact accesses_update16 rfl rfl rfl (aluResult_sbb ..)
  | andRm8R8 | andRm8Imm8 | andRm8Imm8Alias | orRm8R8 | orRm8Imm8 | orRm8Imm8Alias
  | xorRm8R8 | xorRm8Imm8 | xorRm8Imm8Alias | notRm8
  | rolRm8One | rolRm8Cl | rorRm8One | rorRm8Cl | rclRm8One | rclRm8Cl | rcrRm8One | rcrRm8Cl
  | shlRm8One | shlRm8Cl | shrRm8One | shrRm8Cl | sarRm8One | sarRm8Cl => exact accesses_update8 rfl rfl rfl rfl
  | andRm16R16 | andRm16Imm16 | andRm16Imm8 | orRm16R16 | orRm16Imm16 | orRm16Imm8
  | xorRm16R16 | xorRm16Imm16 | xorRm16Imm8 | notRm16
  | rolRm16One | rolRm16Cl | rorRm16One | rorRm16Cl | rclRm16One | rclRm16Cl | rcrRm16One | rcrRm16Cl
  | shlRm16One | shlRm16Cl | shrRm16One | shrRm16Cl | sarRm16One | sarRm16Cl => exact accesses_update16 rfl rfl rfl rfl
  -- an operand read, and no more: what reading it leaves is a `note` of its events
  | cmpRm8R8 | cmpRm8Imm8 | cmpRm8Imm8Alias | cmpRm16R16 | cmpRm16Imm16 | cmpRm16Imm8
  | addR8Rm8 | orR8Rm8 | adcR8Rm8 | sbbR8Rm8 | andR8Rm8 | subR8Rm8 | xorR8Rm8 | cmpR8Rm8
  | addR16Rm16 | orR16Rm16 | adcR16Rm16 | sbbR16Rm16 | andR16Rm16 | subR16Rm16 | xorR16Rm16 | cmpR16Rm16
  | testRm8R8 | testRm8Imm8 | testRm16R16 | testRm16Imm16 | mulRm8 | mulRm16 | imulRm8 | imulRm16
  | movR8Rm8 | movR16Rm16 | movEsRm16 | movSsRm16 | movDsRm16 | jmpRm16 => exact ⟨_, rfl, rfl⟩
  -- neither bus
  | addAlImm8 | orAlImm8 | adcAlImm8 | sbbAlImm8 | andAlImm8 | subAlImm8 | xorAlImm8 | cmpAlImm8
  | addAxImm16 | orAxImm16 | adcAxImm16 | sbbAxImm16 | andAxImm16 | subAxImm16 | xorAxImm16 | cmpAxImm16
  | incR16 | decR16 | testAlImm8 | testAxImm16 | daa | das | aaa | aas | aadImm8 | cbw | cwd
  | movR8Imm8 | movR16Imm16 | leaR16M | xchgAxCx | xchgAxDx | xchgAxBx | xchgAxSp | xchgAxBp | xchgAxSi | xchgAxDi
  | lahf | sahf | jmpRel8 | jmpRel16 | jmpFarPtr | clc | stc | cmc | cld | std | cli | sti | nop | wait | escRm
  | prefixEs | prefixCs | prefixSs | prefixDs | prefixLock | prefixRepne | prefixRep => exact ⟨_, rfl, rfl⟩
  | joRel8 | jnoRel8 | jbRel8 | jnbRel8 | jzRel8 | jnzRel8 | jbeRel8 | jnbeRel8 | jsRel8 | jnsRel8 | jpRel8 | jnpRel8
  | jlRel8 | jnlRel8 | jleRel8 | jnleRel8 | loopRel8 | loopzRel8 | loopnzRel8 | jcxzRel8 =>
    exact ⟨_, rfl, State.jumpIf_devices ..⟩
  | hlt => exact ⟨_, rfl, State.haltNow_devices s⟩
  -- division
  | divRm8 rm => exact ⟨_, rfl, (State.div8_events (s.afterRm8 rm) _).trans (List.append_assoc ..).symm⟩
  | divRm16 rm => exact ⟨_, rfl, (State.div16_events (s.afterRm16 rm) _).trans (List.append_assoc ..).symm⟩
  | idivRm8 rm => exact ⟨_, rfl, (State.idiv8_events (s.afterRm8 rm) _).trans (List.append_assoc ..).symm⟩
  | idivRm16 rm => exact ⟨_, rfl, (State.idiv16_events (s.afterRm16 rm) _).trans (List.append_assoc ..).symm⟩
  | aamImm8 => exact ⟨_, rfl, divideErrorIf_events s _ rfl⟩
  -- a result written to an operand, and an exchange
  | movRm8R8 | movRm8Imm8 => exact ⟨_, rfl, State.store8_devices ..⟩
  | movRm16R16 | movRm16Imm16 | movRm16Es | movRm16Cs | movRm16Ss | movRm16Ds => exact ⟨_, rfl, State.store16_devices ..⟩
  | xchgRm8R8 rm r =>
    exact ⟨_, rfl, (State.store8_devices (s.afterRm8 rm) (s.place rm) (s.get8 r)).trans (List.append_assoc ..).symm⟩
  | xchgRm16R16 rm r =>
    exact ⟨_, rfl, (State.store16_devices (s.afterRm16 rm) (s.place rm) (s.get16 r)).trans (List.append_assoc ..).symm⟩
  -- memory offsets, table entries and far pointers (R103, R148, R218)
  | movAlMoffs8 | movAxMoffs16 => exact ⟨_, rfl, by dsimp only; rw [← State.moffsAddr_eq]; rfl⟩
  | movMoffs8Al => exact ⟨_, rfl, by dsimp only; rw [← State.moffsAddr_eq]; exact State.write8_devices ..⟩
  | movMoffs16Ax => exact ⟨_, rfl, by dsimp only; rw [← State.moffsAddr_eq]; exact State.write16_devices ..⟩
  | xlat => exact ⟨_, rfl, by dsimp only; rw [← State.xlatAddr_eq]; rfl⟩
  | ldsR16M _ m | lesR16M _ m | jmpFarM m => exact ⟨_, rfl, State.afterFar_events s m⟩
  -- the stack (R18)
  | pushR16 r => exact ⟨_, rfl, by cases r <;> exact State.push16_events ..⟩
  | pushEs | pushCs | pushSs | pushDs | pushf | callRel16 => exact ⟨_, rfl, State.push16_events ..⟩
  | pushRm16 rm | callRm16 rm =>
    exact ⟨_, rfl, (State.push16_events (s.afterRm16 rm) _).trans (List.append_assoc ..).symm⟩
  | callFarPtr => exact ⟨_, rfl, State.callFar_events ..⟩
  | callFarM m =>
    exact ⟨_, rfl, by
      dsimp only; rw [State.callFar_events, State.afterFar_events, ← List.append_assoc]; rfl⟩
  | popR16 | popEs | popSs | popDs | popf | ret | retImm16 => exact ⟨_, rfl, State.drop16_events s⟩
  | popRm16 =>
    exact ⟨_, rfl, by
      dsimp only; rw [State.store16_devices, State.drop16_events, ← List.append_assoc]; rfl⟩
  | retf | retfImm16 => exact ⟨_, rfl, State.retFar_events ..⟩
  | iret => exact ⟨_, rfl, State.interruptReturn_events s⟩
  -- interrupts (R364 to R366)
  | intImm8 n => exact ⟨_, rfl, State.softInterrupt_events s n⟩
  | int3 => exact ⟨_, rfl, State.interrupt_events s 3⟩
  | into => exact ⟨_, rfl, interruptOnOverflow_events s⟩
  -- ports (R98 to R100)
  | inAlDx => exact ⟨_, rfl, State.portIn8_events ..⟩
  | inAxDx => exact ⟨_, rfl, State.portIn16_events ..⟩
  | outDxAl => exact ⟨_, rfl, State.portOut8_events ..⟩
  | outDxAx => exact ⟨_, rfl, State.portOut16_events ..⟩
  | inAlImm8 => exact ⟨_, rfl, by dsimp only; rw [BitVec.ofNat_toNat]; exact State.portIn8_events ..⟩
  | inAxImm8 => exact ⟨_, rfl, by dsimp only; rw [BitVec.ofNat_toNat]; exact State.portIn16_events ..⟩
  | outImm8Al => exact ⟨_, rfl, by dsimp only; rw [BitVec.ofNat_toNat]; exact State.portOut8_events ..⟩
  | outImm8Ax => exact ⟨_, rfl, by dsimp only; rw [BitVec.ofNat_toNat]; exact State.portOut16_events ..⟩
  -- strings (R310 to R317)
  | movsb => exact accesses_repeated rfl (State.movsb1_events s)
  | movsw => exact accesses_repeated rfl (State.movsw1_events s)
  | cmpsb | cmpsw => exact accesses_repeatedCompare rfl (by rw [← State.srcAddr_eq, List.append_assoc]; rfl)
  | scasb | scasw => exact accesses_repeatedCompare rfl rfl
  | lodsb | lodsw => exact accesses_repeated rfl (by rw [← State.srcAddr_eq]; rfl)
  | stosb => exact accesses_repeated rfl (State.write8_devices ..)
  | stosw => exact accesses_repeated rfl (State.write16_devices ..)

/-- Settles O38: fetching is `State.fetched_eq`, an entry `State.interrupt_events`, and an instruction one of the cases of
`accesses_busEvents`. -/
theorem deviceAccesses : Obligations.DeviceAccesses := fun s =>
  ⟨fun n => by rw [State.fetched_eq], State.interrupt_events s, fun i => accesses_busEvents i s⟩

end Sys2Proof.Machine

/-! SUPPORT. An interrupt entry, and the processor's step around one instruction (R400, R404). -/

namespace Sys2Proof.Machine

/-! ### What a store depends on (R89) -/

/-- The memory after a byte write. -/
def storedMem (map : List MemRegion) (m : Memory) (a : Addr) (v : Byte) : Memory :=
  if memOwner map a = some .ram then m.set a.toNat v else m

/-- The CGA after a byte write. -/
def storedCga (map : List MemRegion) (c : Cga) (a : Addr) (v : Byte) : Cga :=
  if memOwner map a = some .cga then c.moment.writeByte a v else c

/-- A byte write is an update of three fields, and looks at nothing but them and the bus table. -/
theorem State.write8_update (s : State) (a : Addr) (v : Byte) :
    s.write8 a v =
      { s with
        mem := storedMem s.memMap s.mem a v, cga := storedCga s.memMap s.cga a v
        devices := writeEvents s.memMap a v ++ s.devices } := by
  unfold State.write8 storedMem storedCga writeEvents
  split <;> simp [State.note, *]

/-- The pushes of an interrupt entry do not look at the pending prefixes. -/
theorem framePushed_pend (s : State) (p : Pending) :
    framePushed { s with pend := p } = { framePushed s with pend := p } := by
  simp only [framePushed, State.push16, State.write16, State.write8_update]
  rfl

/-- Flags written before a push may as well be written after it. -/
theorem State.push16_setFlags (s : State) (f : Flags) (v : Word) :
    (s.setFlags f).push16 v = (s.push16 v).setFlags f := by
  simp only [State.push16, State.write16, State.write8_update]
  rfl

/-- An interrupt entry: the frame pushed, the two words of the vector read, and `CS`, `IP` and the flags loaded (R404). -/
theorem State.interrupt_eq (s : State) (n : Byte) :
    s.interrupt n =
      { ((framePushed s).afterRead16 (ivtAddr n)).afterRead16 (ivtAddr n + 2) with
        ip := (framePushed s).read16 (ivtAddr n)
        cs := ((framePushed s).afterRead16 (ivtAddr n)).read16 (ivtAddr n + 2)
        flags := s.flags.masked } := by
  simp only [State.interrupt, State.push16_setFlags, State.setFlags_cs, State.setFlags_ip, State.push16_cs,
    State.push16_ip]
  rw [← framePushed]
  generalize framePushed s = p
  rfl

/-! ### Stores one after the other -/

/-- From one state to a later one nothing is stored to but these bytes, and the bus table stays. -/
structure StoresOnly (s t : State) (cells : List Addr) : Prop where
  memMap : t.memMap = s.memMap
  grows : HistoryGrows s t
  outside : MemoryOutside s t cells

theorem StoresOnly.trans {s t u : State} {l l' : List Addr} (h : StoresOnly s t l) (h' : StoresOnly t u l') :
    StoresOnly s u (l ++ l') := by
  refine ⟨h'.memMap.trans h.memMap, h.grows.trans h'.grows, fun a ha hd => ?_⟩
  have hs : PlatformOwns s a → t.devices = s.devices := fun hp => h.grows.eq_of_eq h'.grows (hd hp)
  calc u.read8 a = t.read8 a :=
        h'.outside a (fun b hb => by rw [SameCell.congr h.memMap]; exact ha b (List.mem_append_right _ hb)) fun hp => by
          have hp := (PlatformOwns.congr h.memMap a).1 hp
          rw [hd hp, hs hp]
    _ = s.read8 a := h.outside a (fun b hb => ha b (List.mem_append_left _ hb)) hs

theorem storesOnly_push16 (s : State) (v : Word) :
    StoresOnly s (s.push16 v) [lin s.ss (s.regs.sp - 2), lin s.ss (s.regs.sp - 2) + 1] :=
  ⟨State.push16_memMap .., ⟨_, State.push16_devices ..⟩, (s.push16_spec v).2.1⟩

/-- A byte that no device of the platform owns reads as before where it is not stored to. -/
theorem StoresOnly.read8 {s t : State} {l : List Addr} {a : Addr} (h : StoresOnly s t l)
    (ha : ∀ b ∈ l, ¬SameCell s a b) (hn : ¬PlatformOwns s a) : t.read8 a = s.read8 a :=
  h.outside a ha fun hp => absurd hp hn

/-- A byte stored stays stored through stores to other bytes. -/
theorem ByteStored.through {s t u : State} {a : Addr} {v : Byte} {l : List Addr} (h : ByteStored s t a v)
    (hm : t.memMap = s.memMap) (h' : StoresOnly t u l) (hl : ∀ b ∈ l, ¬SameCell s a b) : ByteStored s u a v :=
  h.later h'.grows fun hn =>
    h'.read8 (fun b hb => by rw [SameCell.congr hm]; exact hl b hb) (by rwa [PlatformOwns.congr hm])

/-- A byte stored after stores to other bytes is stored as seen from before them. -/
theorem ByteStored.before {s t u : State} {a : Addr} {v : Byte} {l : List Addr} (h : ByteStored t u a v)
    (h' : StoresOnly s t l) (hl : ∀ b ∈ l, ¬SameCell s a b) : ByteStored s u a v := by
  have hr : (∀ d, memOwner s.memMap a ≠ some (.other d)) → t.read8 a = s.read8 a := fun hn =>
    h'.read8 hl fun ⟨d, hd⟩ => hn d hd
  unfold ByteStored at h ⊢
  rw [h'.memMap] at h
  split
  case h_1 hd | h_2 hd => rw [hd] at h; exact h
  case h_3 d hd => rw [hd] at h; exact Happened.earlier h'.grows h
  case h_4 hd | h_5 hd => rw [hd] at h; exact h.trans (hr (by simp [hd]))

theorem WordStored.through {s t u : State} {a : Addr} {v : Word} {l : List Addr} (h : WordStored s t a v)
    (hm : t.memMap = s.memMap) (h' : StoresOnly t u l) (hl : ∀ x ∈ [a, a + 1], ∀ b ∈ l, ¬SameCell s x b) :
    WordStored s u a v :=
  ⟨h.1.through hm h' (hl a (by simp)), h.2.through hm h' (hl (a + 1) (by simp))⟩

theorem WordStored.before {s t u : State} {a : Addr} {v : Word} {l : List Addr} (h : WordStored t u a v)
    (h' : StoresOnly s t l) (hl : ∀ x ∈ [a, a + 1], ∀ b ∈ l, ¬SameCell s x b) : WordStored s u a v :=
  ⟨h.1.before h' (hl a (by simp)), h.2.before h' (hl (a + 1) (by simp))⟩

/-- The two bytes of a word are other cells than those of the words 2 and 4 bytes below it in the same segment, round the
segment's end too. -/
theorem not_sameCell_below (s : State) (seg x d : Word) (hd : d = 2 ∨ d = 4) :
    ∀ a ∈ [lin seg x, lin seg x + 1], ∀ b ∈ [lin seg (x - d), lin seg (x - d) + 1],
      ¬SameCell s a b ∧ ¬SameCell s b a := by
  intro a ha b hb
  have hne : vramIndex a ≠ vramIndex b := by
    have hx := x.isLt
    simp only [List.mem_cons, List.not_mem_nil, or_false] at ha hb
    rcases hd with rfl | rfl <;> rcases ha with rfl | rfl <;> rcases hb with rfl | rfl <;>
      simp only [vramIndex_succ, vramIndex_lin, BitVec.toNat_sub, BitVec.reduceToNat] <;> omega
  exact ⟨fun h => hne h.vramIndex_eq, fun h => hne h.vramIndex_eq.symm⟩


/-! ### The frame of an interrupt entry (R404) -/

/-- What the three pushes of an interrupt entry leave: each word stored, and no other byte. -/
theorem framePushed_spec (s : State) :
    StoresOnly s (framePushed s) (entryCells s) ∧
      WordStored s (framePushed s) (lin s.ss (s.regs.sp - 2)) s.flags.image ∧
      WordStored s (framePushed s) (lin s.ss (s.regs.sp - 4)) s.cs ∧
      WordStored s (framePushed s) (lin s.ss (s.regs.sp - 6)) s.ip := by
  have e4 : s.regs.sp - 2 - 2 = s.regs.sp - 4 := BitVec.sub_sub ..
  have e6 : s.regs.sp - 4 - 2 = s.regs.sp - 6 := BitVec.sub_sub ..
  have e6' : s.regs.sp - 2 - 4 = s.regs.sp - 6 := BitVec.sub_sub ..
  -- the three pushes, each over the state before it
  have h1 := storesOnly_push16 s s.flags.image
  have h2 := storesOnly_push16 (s.push16 s.flags.image) s.cs
  have h3 := storesOnly_push16 ((s.push16 s.flags.image).push16 s.cs) s.ip
  have w1 := (s.push16_spec s.flags.image).1
  have w2 := ((s.push16 s.flags.image).push16_spec s.cs).1
  have w3 := (((s.push16 s.flags.image).push16 s.cs).push16_spec s.ip).1
  simp only [State.push16_regs, State.push16_ss, e4, e6] at h2 h3 w2 w3
  -- the three words lie on different cells
  have d12 := not_sameCell_below s s.ss (s.regs.sp - 2) 2 (.inl rfl)
  have d13 := not_sameCell_below s s.ss (s.regs.sp - 2) 4 (.inr rfl)
  have d23 := not_sameCell_below s s.ss (s.regs.sp - 4) 2 (.inl rfl)
  rw [e4] at d12
  rw [e6'] at d13
  rw [e6] at d23
  have h12 := h1.trans h2
  have h23 := h2.trans h3
  refine ⟨h12.trans h3, w1.through h1.memMap h23 fun x hx b hb => ?_,
    (w2.before h1 fun x hx b hb => (d12 b hb x hx).2).through h12.memMap h3 fun x hx b hb => (d23 x hx b hb).1,
    w3.before h12 fun x hx b hb => ?_⟩
  · rcases List.mem_append.1 hb with hb | hb
    exacts [(d12 x hx b hb).1, (d13 x hx b hb).1]
  · rcases List.mem_append.1 hb with hb | hb
    exacts [(d13 b hb x hx).2, (d23 b hb x hx).2]

/-- What the reads of the vector and the loads after the pushes leave stored. -/
theorem storesOnly_interrupt (s : State) (n : Byte) : StoresOnly (framePushed s) (s.interrupt n) [] := by
  rw [State.interrupt_eq]
  generalize framePushed s = p
  refine ⟨rfl, ⟨_, (List.append_assoc ..).symm⟩, ?_⟩
  apply memoryOutside_of_eq <;> rfl

/-- An interrupt entry, as `Entered` says it (R404). -/
theorem entered_interrupt (s : State) (n : Byte) : Entered s (s.interrupt n) n := by
  obtain ⟨-, w1, w2, w3⟩ := framePushed_spec s
  have hm : (framePushed s).memMap = s.memMap := (framePushed_spec s).1.memMap
  have hi := storesOnly_interrupt s n
  refine ⟨?_, w1.through hm hi (by simp), w2.through hm hi (by simp), w3.through hm hi (by simp), ?_, ?_, ?_⟩
  · simp [State.interrupt_eq, framePushed, State.afterRead16_eq, BitVec.sub_sub]
  · rw [State.interrupt_eq, ← ivtAddr_eq]
  · rw [State.interrupt_eq, ← ivtAddr_eq, ← ivtAddr_add_two]
  · rw [State.interrupt_eq]; rfl

/-- Only the six bytes of its frame are stored to by an interrupt entry. -/
theorem memoryOutside_interrupt (s : State) (n : Byte) : MemoryOutside s (s.interrupt n) (entryCells s) := by
  simpa using ((framePushed_spec s).1.trans (storesOnly_interrupt s n)).outside

/-- An interrupt entry changes no general register but `SP`. -/
theorem registersOutside_interrupt (s : State) (n : Byte) : RegistersOutside s (s.interrupt n) [.sp] := by
  intro r hr
  rw [State.interrupt_eq]
  have hregs : (framePushed s).regs = { s.regs with sp := s.regs.sp - 2 - 2 - 2 } := by simp [framePushed]
  cases r <;> simp_all [State.get16, Regs.get, State.afterRead16_eq]

/-- The pending prefixes before it do not matter to an interrupt entry. -/
theorem Entered.of_pend {s t : State} {p : Pending} {n : Byte} (h : Entered { s with pend := p } t n) : Entered s t n := by
  unfold Entered at h ⊢
  rw [framePushed_pend] at h
  generalize framePushed s = q at h ⊢
  exact h

/-! ### The end of an instruction and of a turn (R400, R412) -/

/-- The end of an instruction: the single-step trap, or nothing but the prefixes gone (R412, D20). -/
theorem State.finished_spec (s : State) (tf : Bool) :
    if tf = true ∧ Config.singleStepTrap = true ∧ s.ended = false then
      Entered s (s.finished tf) 1 ∧ (s.finished tf).halt = false ∧ (s.finished tf).pend = noPending ∧
        RegistersOutside s (s.finished tf) [.sp] ∧ MemoryOutside s (s.finished tf) (entryCells s)
    else s.finished tf = { s with pend := noPending } := by
  by_cases h : tf = true ∧ Config.singleStepTrap = true ∧ s.ended = false
  · have hf : s.finished tf = { ({ s with pend := noPending } : State).interrupt 1 with halt := false } := by
      obtain ⟨ht, hc, he⟩ := h
      simp [State.finished, ht, hc, he]
    have hent : Entered s _ 1 := (entered_interrupt { s with pend := noPending } 1).of_pend
    have hreg := registersOutside_interrupt { s with pend := noPending } 1
    have hmem := memoryOutside_interrupt { s with pend := noPending } 1
    have hpend : (({ s with pend := noPending } : State).interrupt 1).pend = noPending := by
      rw [State.interrupt_eq, framePushed_pend]; rfl
    rw [if_pos h, hf]
    generalize State.interrupt _ 1 = t at *
    exact ⟨hent, rfl, hpend, hreg, hmem⟩
  · rw [if_neg h, State.finished]
    refine if_neg fun hc => h ?_
    simpa [and_assoc] using hc

/-- The end of a turn: a positive cycle count, the peripherals' steps unless the run is over, and a moment (R11, R421). -/
theorem State.afterStep_spec (s : State) (e : Nat) :
    0 < (s.afterStep e).cycles ∧
      s.afterStep e =
        { s with
          cycles := (s.afterStep e).cycles
          draws := s.draws + 1
          now := if s.ended then s.now else s.now + e
          devices := if s.ended then s.devices else .step (s.afterStep e).cycles :: s.devices
          cga := (if s.ended then s.cga else s.cga.step (s.afterStep e).cycles (s.now + e)).moment } := by
  by_cases h : s.ended = true
  · simp only [State.afterStep, if_pos h]
    exact ⟨Nat.succ_pos _, rfl⟩
  · simp only [State.afterStep, if_neg h]
    exact ⟨Nat.succ_pos _, rfl⟩

/-! ### One instruction of a step (R400) -/

/-- Where the coming bytes are an instruction and no prefix, running is that instruction, past its bytes (R132). -/
theorem State.runInstr_of_decode {s : State} {i : Instr} {n : Nat} (k : Nat) (hd : decode (s.codeBytes n) = .ok (i, []))
    (hp : i.isPrefix = false) : State.runInstr (k + 1) s = exec i (s.fetched n) := by
  rw [State.runInstr, State.fetchInstr_of_decode hd]
  simp [hp]

/-- With no request to acknowledge the interrupt check does nothing (R402). -/
theorem State.interruptCheck_of_none {s : State} (h : s.flags.ifl = false ∨ s.pic.nextPending = none) :
    s.interruptCheck = s := by
  unfold State.interruptCheck
  rcases h with h | h <;> simp [h]

/-- A step of the processor that acknowledges no request is its instruction phase (R400, R402). -/
theorem State.procStep_of_none {s : State} (he : s.ended = false)
    (hi : s.flags.ifl = false ∨ s.pic.nextPending = none) : s.procStep = s.instrPhase := by
  rw [State.procStep, State.interruptCheck_of_none hi]
  simp [Config.v20Support, Config.debuggerPresent, he]

/-- Settles O8: the instruction of the step is `State.runInstr_of_decode`, its end `State.finished_spec`, and the end of
the turn `State.afterStep_spec`. -/
theorem stepRunsDecodedInstruction : Obligations.StepRunsDecodedInstruction := by
  refine ⟨fun s i n he hh hi hd hp => ?_, State.finished_spec, State.afterStep_spec⟩
  have hf : FetchesAs s s.takeInput.begun := ⟨rfl, rfl, rfl, rfl, rfl, rfl⟩
  have hh' : ¬s.takeInput.halt = true := Bool.eq_false_iff.1 hh
  have hr : State.runInstr prefixLimit s.takeInput.begun = exec i (s.takeInput.begun.fetched n) :=
    State.runInstr_of_decode 65535 (hf.codeBytes n ▸ hd) hp
  rw [step, State.turn, State.procStep_of_none (s := s.takeInput) he hi, State.instrPhase,
    if_neg hh', hr]
  cases exec i (s.takeInput.begun.fetched n) <;> rfl

end Sys2Proof.Machine

/-! SUPPORT. The half registers and the FLAGS image (10_state.md R32, R38, R40). -/

namespace Sys2Proof.Machine

/-! ### Words and their bytes (R32) -/

/-- A word is its high byte times 256 plus its low byte. -/
theorem toNat_eq_hiByte_loByte (v : Word) : v.toNat = (hiByte v).toNat * 256 + (loByte v).toNat := by
  simp only [hiByte, loByte, BitVec.extractLsb'_toNat, Nat.shiftRight_eq_div_pow]
  omega

/-- Settles O13: a half register is a byte of its container, and `State.get8_set8` and `State.get16_set16` say what each
write leaves. -/
theorem halfRegistersAlias : Obligations.HalfRegistersAlias := by
  refine ⟨rfl, State.get8_set8, fun s r q v hq => ?_, fun s => ?_, fun s v => ?_⟩
  · rw [State.set8, State.get16_set16, if_neg hq]
  · exact ⟨toNat_eq_hiByte_loByte _, toNat_eq_hiByte_loByte _, toNat_eq_hiByte_loByte _, toNat_eq_hiByte_loByte _⟩
  · exact ⟨⟨rfl, rfl⟩, ⟨rfl, rfl⟩, ⟨rfl, rfl⟩, ⟨rfl, rfl⟩⟩

/-! ### The FLAGS image (R38, R40) -/

/-- A flag's image has the flag at its bit and 0 at the others. -/
theorem getLsbD_flagBit {b : Bool} {k j : Nat} (hj : j < 16) : (flagBit b k).getLsbD j = (decide (j = k) && b) := by
  rcases Nat.lt_trichotomy j k with h | rfl | h
  · simp [flagBit, h, h.ne]
  · simp [flagBit, hj]
  · have hz : j - k ≠ 0 := by omega
    simp [flagBit, hj, h.ne', hz, BitVec.getLsbD_ofBool]

/-- The bits of the FLAGS image: nine flags, and the fixed bits elsewhere. -/
theorem getLsbD_image (f : Flags) {j : Nat} (hj : j < 16) :
    f.image.getLsbD j =
      match j with
      | 0 => f.cf | 2 => f.pf | 4 => f.af | 6 => f.zf | 7 => f.sf | 8 => f.tf | 9 => f.ifl | 10 => f.df | 11 => f.ofl
      | j => (0xF002#16).getLsbD j := by
  simp only [Flags.image, Config.flagsFixedBits, BitVec.getLsbD_or, getLsbD_flagBit hj]
  interval_cases j <;> simp

/-- Loading an image gives back the flags it was made of. -/
theorem flagsOfImage_image (f : Flags) : flagsOfImage f.image = f := by
  simp (disch := decide) only [flagsOfImage, getLsbD_image]

/-- Taking the image of a loaded word keeps its nine flag bits and sets the others to the fixed ones. -/
theorem image_flagsOfImage (v : Word) : (flagsOfImage v).image = v &&& 0x0FD5 ||| 0xF002 := by
  refine BitVec.eq_of_getLsbD_eq fun j hj => ?_
  rw [getLsbD_image _ hj]
  interval_cases j <;> simp [flagsOfImage]

/-- Settles O14: both ways by the bits of the image. -/
theorem flagsImageLayout : Obligations.FlagsImageLayout :=
  ⟨flagsOfImage_image, fun v => ⟨image_flagsOfImage v, rfl⟩⟩

end Sys2Proof.Machine

/-! SUPPORT. What only some instructions write, `CS`, `TF` and `Halt` (10_state.md R36, R39, R41): the operations that
instructions are made of first, then every instruction. -/

namespace Sys2Proof.Machine

/-! ### What the flag functions leave of `TF` (R39) -/

section
variable {w : Nat} (f : Flags) (a b : BitVec w) (c : Bool) (u : Word)

@[simp] theorem Flags.setSZP_tf : (f.setSZP a).tf = f.tf := by simp only [Flags.setSZP]
@[simp] theorem Flags.afterAdd_tf : (f.afterAdd a b c).tf = f.tf := by simp [Flags.afterAdd]
@[simp] theorem Flags.afterSub_tf : (f.afterSub a b c).tf = f.tf := by simp [Flags.afterSub]
@[simp] theorem Flags.afterLogic_tf : (f.afterLogic a u).tf = f.tf := by simp [Flags.afterLogic]
@[simp] theorem Flags.afterInc_tf : (f.afterInc a).tf = f.tf := by simp [Flags.afterInc]
@[simp] theorem Flags.afterDec_tf : (f.afterDec a).tf = f.tf := by simp [Flags.afterDec]
@[simp] theorem Flags.afterMul_tf : (f.afterMul c u).tf = f.tf := rfl
@[simp] theorem Flags.afterDiv_tf : (f.afterDiv u).tf = f.tf := rfl
@[simp] theorem Flags.afterAscii_tf : (f.afterAscii c u).tf = f.tf := rfl
@[simp] theorem Flags.afterDecimal_tf (al : Byte) (d : Bool) : (f.afterDecimal al c d u).tf = f.tf := by
  simp [Flags.afterDecimal]
@[simp] theorem Flags.afterAsciiMul_tf (al : Byte) : (f.afterAsciiMul al u).tf = f.tf := by
  simp [Flags.afterAsciiMul]
@[simp] theorem Flags.loadLow_tf (ah : Byte) : (f.loadLow ah).tf = f.tf := rfl

@[simp] theorem Flags.afterAlu_tf (op : AluOp) : (f.afterAlu op a b u).tf = f.tf := by
  cases op <;> rfl

@[simp] theorem Flags.afterShift_tf (op : ShiftOp) (n : Nat) : (f.afterShift op a n u).tf = f.tf := by
  unfold Flags.afterShift
  split
  · rfl
  · simp only
    split <;> rfl

end

/-! ### The control state: `CS`, `TF` and `Halt` -/

/-- What only control instructions write (R36, R39, R41). -/
def State.control (s : State) : Word × Bool × Bool := (s.cs, s.flags.tf, s.halt)

theorem State.control_eq_iff {s t : State} :
    t.control = s.control ↔ t.cs = s.cs ∧ t.flags.tf = s.flags.tf ∧ t.halt = s.halt := by
  simp [State.control]

/-- Two states that agree on `CS`, the flags and `Halt`. -/
theorem State.control_congr {s t : State} (hc : t.cs = s.cs) (hf : t.flags = s.flags) (hh : t.halt = s.halt) :
    t.control = s.control := by
  rw [State.control, hc, hf, hh]; rfl

/-! The operations that instructions are made of leave it. -/

section
variable (s : State)

@[simp] theorem State.control_set16 (r : Reg16) (v : Word) : (s.set16 r v).control = s.control := rfl
@[simp] theorem State.control_set8 (r : Reg8) (v : Byte) : (s.set8 r v).control = s.control := rfl
@[simp] theorem State.control_setSp (v : Word) : (s.setSp v).control = s.control := rfl
@[simp] theorem State.control_setIp (v : Word) : (s.setIp v).control = s.control := rfl
@[simp] theorem State.control_drew (d : Bool) : (s.drew d).control = s.control := rfl
@[simp] theorem State.control_note (es : List DeviceEvent) : (s.note es).control = s.control := rfl
@[simp] theorem State.control_drop16 : s.drop16.control = s.control := rfl
@[simp] theorem State.control_override (r : SReg) : (s.override r).control = s.control := rfl
@[simp] theorem State.control_repeatPrefix (r : Rep) : (s.repeatPrefix r).control = s.control := rfl

@[simp] theorem State.control_pend (p : Pending) : ({ s with pend := p } : State).control = s.control := rfl

@[simp] theorem State.control_setFlags (f : Flags) : (s.setFlags f).control = (s.cs, f.tf, s.halt) := rfl

@[simp] theorem State.control_setS (r : SReg) (v : Word) :
    (s.setS r v).control = (if r = .cs then v else s.cs, s.flags.tf, s.halt) := by
  simp [State.control]

@[simp] theorem State.control_mk : (s.cs, s.flags.tf, s.halt) = s.control := rfl

@[simp] theorem State.control_write8 (a : Addr) (v : Byte) : (s.write8 a v).control = s.control :=
  State.control_congr (State.write8_cs ..) (State.write8_flags ..) (State.write8_halt ..)

@[simp] theorem State.control_write16 (a : Addr) (v : Word) : (s.write16 a v).control = s.control :=
  State.control_congr (State.write16_cs ..) (State.write16_flags ..) (State.write16_halt ..)

@[simp] theorem State.control_push16 (v : Word) : (s.push16 v).control = s.control :=
  State.control_congr (State.push16_cs ..) (State.push16_flags ..) (State.push16_halt ..)

@[simp] theorem State.control_portIn8 (p : Word) : (s.portIn8 p).2.control = s.control :=
  State.control_congr (State.portIn8_cs ..) (State.portIn8_flags ..) (State.portIn8_halt ..)

@[simp] theorem State.control_portOut8 (p : Word) (v : Byte) : (s.portOut8 p v).control = s.control :=
  State.control_congr (State.portOut8_cs ..) (State.portOut8_flags ..) (State.portOut8_halt ..)

/-! Stores, the operations on an operand and the shared parts of the families. -/

@[simp] theorem State.control_store8 (p : Place Reg8) (v : Byte) : (s.store8 p v).control = s.control := by
  cases p <;> simp [State.store8]

@[simp] theorem State.control_store16 (p : Place Reg16) (v : Word) : (s.store16 p v).control = s.control := by
  cases p <;> simp [State.store16]

@[simp] theorem State.control_setRm8 (rm : RM Reg8) (v : Byte) : (s.setRm8 rm v).control = s.control :=
  s.control_store8 _ v

@[simp] theorem State.control_setRm16 (rm : RM Reg16) (v : Word) : (s.setRm16 rm v).control = s.control :=
  s.control_store16 _ v

@[simp] theorem State.control_jumpIf (c : Bool) (rel : Byte) : (s.jumpIf c rel).control = s.control := by
  cases c <;> simp

@[simp] theorem State.control_aluFlags {w : Nat} (op : AluOp) (a b : BitVec w) :
    (s.aluFlags op a b).control = s.control := by
  simp [State.aluFlags]

@[simp] theorem State.control_alu8 (op : AluOp) (p : Place Reg8) (a b : Byte) :
    (s.alu8 op p a b).control = s.control := by
  unfold State.alu8; split <;> simp

@[simp] theorem State.control_alu16 (op : AluOp) (p : Place Reg16) (a b : Word) :
    (s.alu16 op p a b).control = s.control := by
  unfold State.alu16; split <;> simp

@[simp] theorem State.control_shift8 (op : ShiftOp) (rm : RM Reg8) (n : Nat) :
    (s.shift8 op rm n).control = s.control := by
  simp [State.shift8, State.afterRm8_eq]

@[simp] theorem State.control_shift16 (op : ShiftOp) (rm : RM Reg16) (n : Nat) :
    (s.shift16 op rm n).control = s.control := by
  simp [State.shift16, State.afterRm16_eq]

@[simp] theorem State.control_decimalAdjust (d e : Byte) (c : Bool) :
    (s.decimalAdjust d e c).control = s.control := by
  simp only [State.decimalAdjust, State.control_drew, State.control_setFlags, Flags.afterDecimal_tf]
  rfl

/-! An iteration of a string instruction, and a repeat of it (R310, R312). -/

@[simp] theorem State.control_compare {w : Nat} (a b : BitVec w) : (s.compare a b).control = s.control := by
  simp [State.compare]

@[simp] theorem State.control_stepSi (n : Word) : (s.stepSi n).control = s.control := rfl
@[simp] theorem State.control_stepDi (n : Word) : (s.stepDi n).control = s.control := rfl

@[simp] theorem State.control_movsb1 : s.movsb1.control = s.control := by simp [State.movsb1, State.afterRead8]
@[simp] theorem State.control_movsw1 : s.movsw1.control = s.control := by simp [State.movsw1, State.afterRead16]
@[simp] theorem State.control_cmpsb1 : s.cmpsb1.control = s.control := by simp [State.cmpsb1, State.afterRead8]
@[simp] theorem State.control_cmpsw1 : s.cmpsw1.control = s.control := by simp [State.cmpsw1, State.afterRead16]
@[simp] theorem State.control_scasb1 : s.scasb1.control = s.control := by simp [State.scasb1, State.afterRead8]
@[simp] theorem State.control_scasw1 : s.scasw1.control = s.control := by simp [State.scasw1, State.afterRead16]
@[simp] theorem State.control_lodsb1 : s.lodsb1.control = s.control := by simp [State.lodsb1, State.afterRead8]
@[simp] theorem State.control_lodsw1 : s.lodsw1.control = s.control := by simp [State.lodsw1, State.afterRead16]
@[simp] theorem State.control_stosb1 : s.stosb1.control = s.control := by simp [State.stosb1]
@[simp] theorem State.control_stosw1 : s.stosw1.control = s.control := by simp [State.stosw1]

@[simp] theorem State.control_afterIteration (m : Bool) : (s.afterIteration m).control = s.control := by
  unfold State.afterIteration
  simp only
  split <;> simp

theorem State.control_repeated {once : State → State} (h : (once s).control = s.control) :
    (s.repeated once).control = s.control := by
  unfold State.repeated
  split
  · exact h
  · split
    · rfl
    · simp [h]

theorem State.control_repeatedCompare {once : State → State} (h : (once s).control = s.control) :
    (s.repeatedCompare once).control = s.control := by
  unfold State.repeatedCompare
  split
  · exact h
  · split
    · rfl
    · simp [h]

end

/-- An instruction that may not change `CS`, and is neither `POPF` nor `HLT`, leaves `CS`, `TF` and `Halt`:
its shape unfolds to the operations above. -/
theorem exec_control {i : Instr} {s t : State} (hc : mayWriteCs i = false) (hp : i ≠ .popf) (hh : i ≠ .hlt)
    (he : exec i s = .next t) : t.control = s.control := by
  cases i
  case callFarPtr | callFarM | jmpFarPtr | jmpFarM | retf | retfImm16 | iret | intImm8 | int3 | into => cases hc
  case divRm8 | divRm16 | idivRm8 | idivRm16 | aamImm8 => cases hc
  case popf => exact absurd rfl hp
  case hlt => exact absurd rfl hh
  all_goals
    cases he
    simp [State.afterRead8, State.afterRead16_eq, State.afterRm8_eq,
      State.afterRm16_eq, State.afterFar_eq, State.aluRm8R8, State.aluRm16R16, State.aluR8Rm8,
      State.aluR16Rm16, State.aluAlImm8, State.aluAxImm16, State.aluRm8Imm8, State.aluRm16Imm16,
      State.afterLoad16, State.control_repeated, State.control_repeatedCompare,
      State.test, State.inc16, State.dec16, State.product16, State.product32, State.asciiAdjust,
      State.asciiMul, State.xchgAx, State.inAl, State.inAx, State.portIn16, State.portOut16, State.jumpBy,
      State.callNear, State.retNear, State.loopBy]

/-! ### Far transfers, interrupts, returns and divide errors (R36, R525) -/

/-- From one state to the next `Halt` is unchanged and `TF` is not set. -/
def Quiet (s t : State) : Prop := t.halt = s.halt ∧ (t.flags.tf = true → s.flags.tf = true)

theorem Quiet.of_control {s t : State} (h : t.control = s.control) : Quiet s t := by
  obtain ⟨-, htf, hh⟩ := State.control_eq_iff.1 h
  exact ⟨hh, fun h => htf ▸ h⟩

theorem Quiet.of_flags {s t : State} (hh : t.halt = s.halt) (hf : t.flags = s.flags) : Quiet s t :=
  ⟨hh, fun h => hf ▸ h⟩

theorem State.interrupt_halt (s : State) (n : Byte) : (s.interrupt n).halt = s.halt := by
  simp [State.interrupt_eq, framePushed, State.afterRead16_eq]

theorem State.interrupt_pend (s : State) (n : Byte) : (s.interrupt n).pend = s.pend := by
  simp [State.interrupt_eq, framePushed, State.afterRead16_eq]

/-- An interrupt entry masks `TF` (R404). -/
theorem quiet_interrupt (s : State) (n : Byte) : Quiet s (s.interrupt n) := by
  refine ⟨s.interrupt_halt n, fun h => ?_⟩
  rw [State.interrupt_eq] at h
  exact absurd h Bool.false_ne_true

theorem State.hostWrites_halt (s : State) (ws : List HostWrite) : (s.hostWrites ws).halt = s.halt := by
  induction ws generalizing s with
  | nil => rfl
  | cons w ws ih =>
    rw [State.hostWrites, ih]
    cases w <;> simp [State.hostWrite]

/-- A hook's handler changes neither: `TF` is left as it was (R411). -/
theorem quiet_runHook (s : State) (n : Byte) : Quiet s (s.runHook n) := ⟨s.hostWrites_halt _, id⟩

theorem quiet_softInterrupt (s : State) (n : Byte) : Quiet s (s.softInterrupt n) := by
  unfold State.softInterrupt
  split
  exacts [quiet_runHook s n, quiet_interrupt s n]

theorem quiet_divideErrorIf (s : State) {t : State} (p : Prop) [Decidable p] (h : Quiet s t) :
    Quiet s (if p then s.divideError else t) := by
  split
  exacts [quiet_interrupt s 0, h]

theorem quiet_quotient8 (s : State) (q r : Byte) : Quiet s (s.quotient8 q r) := .of_control rfl

theorem quiet_quotient16 (s : State) (q r : Word) : Quiet s (s.quotient16 q r) := .of_control rfl

/-- An instruction that may change `CS` does not halt, and but for `IRET` it does not set `TF`. -/
theorem exec_quiet_of_mayWriteCs {i : Instr} {s t : State} (hc : mayWriteCs i = true) (hi : i ≠ .iret)
    (he : exec i s = .next t) : Quiet s t := by
  cases i
  case callFarPtr | callFarM =>
    cases he
    refine .of_flags ?_ ?_ <;> simp [State.callFar, State.jumpFar, State.afterFar_eq]
  case jmpFarPtr | jmpFarM => cases he; exact .of_flags rfl rfl
  case retf | retfImm16 => cases he; exact .of_flags rfl rfl
  case intImm8 n => cases he; exact quiet_softInterrupt s n
  case int3 => cases he; exact quiet_interrupt s 3
  case into =>
    cases he
    split
    exacts [quiet_interrupt s 4, .of_control rfl]
  case divRm8 rm | idivRm8 rm =>
    cases he
    exact quiet_divideErrorIf (s.afterRm8 rm) _ (quiet_divideErrorIf _ _ (quiet_quotient8 ..))
  case divRm16 rm | idivRm16 rm =>
    cases he
    exact quiet_divideErrorIf (s.afterRm16 rm) _ (quiet_divideErrorIf _ _ (quiet_quotient16 ..))
  case aamImm8 b => cases he; exact quiet_divideErrorIf s _ (.of_control rfl)
  case iret => exact absurd rfl hi
  all_goals cases hc

/-- An instruction that is none of `POPF`, `IRET` and `HLT` does not halt and does not set `TF`. -/
theorem exec_quiet {i : Instr} {s t : State} (hp : i ≠ .popf) (hi : i ≠ .iret) (hh : i ≠ .hlt)
    (he : exec i s = .next t) : Quiet s t := by
  cases hc : mayWriteCs i with
  | true => exact exec_quiet_of_mayWriteCs hc hi he
  | false => exact .of_control (exec_control hc hp hh he)

/-! ### `HLT` (R378) -/

theorem State.haltNow_cs (s : State) : s.haltNow.cs = s.cs := by
  unfold State.haltNow; split <;> rfl

theorem State.haltNow_flags (s : State) : s.haltNow.flags = s.flags := by
  unfold State.haltNow; split <;> rfl

/-- `HLT` halts only with interrupts enabled. -/
theorem State.ifl_of_haltNow {s : State} (hs : s.halt = false) (h : s.haltNow.halt = true) : s.flags.ifl = true := by
  unfold State.haltNow at h
  split at h
  · assumption
  · exact absurd (hs.symm.trans h) Bool.false_ne_true

/-! ### Every instruction -/

/-- Only the instructions of R36 and R525 change `CS`. -/
theorem exec_cs {i : Instr} {s t : State} (hc : mayWriteCs i = false) (he : exec i s = .next t) : t.cs = s.cs := by
  by_cases hp : i = .popf
  · subst hp; cases he; rfl
  by_cases hh : i = .hlt
  · subst hh; cases he; exact s.haltNow_cs
  · exact (State.control_eq_iff.1 (exec_control hc hp hh he)).1

/-- Only `POPF` and `IRET` set `TF` (R39). -/
theorem exec_tf {i : Instr} {s t : State} (ht : maySetTf i = false) (he : exec i s = .next t)
    (h : t.flags.tf = true) : s.flags.tf = true := by
  by_cases hh : i = .hlt
  · subst hh; cases he; rwa [State.haltNow_flags] at h
  · have hp : i ≠ .popf := by rintro rfl; cases ht
    have hi : i ≠ .iret := by rintro rfl; cases ht
    exact (exec_quiet hp hi hh he).2 h

/-- Only `HLT` halts (R41, R378). -/
theorem exec_halt {i : Instr} {s t : State} (hh : i ≠ .hlt) (he : exec i s = .next t) : t.halt = s.halt := by
  by_cases hp : i = .popf
  · subst hp; cases he; rfl
  by_cases hi : i = .iret
  · subst hi; cases he; rfl
  · exact (exec_quiet hp hi hh he).1

/-- A halted machine stays halted and a run that is over stays over. -/
theorem kept_stopped (s : State) :
    Kept fun t => (s.halt = true → t.halt = true) ∧ (s.ended = true → t.ended = true) where
  regs _ h := h
  cs _ h := h
  ds _ h := h
  es _ h := h
  ss _ h := h
  ip _ h := h
  flags _ h := h
  pend _ h := h
  draws _ h := h
  halt h := ⟨fun _ => rfl, h.2⟩
  ended h := ⟨h.1, fun _ => rfl⟩
  note _ h := h
  write8 _ _ h := by rwa [State.write8_halt, State.write8_ended]
  portIn8 _ h := by rwa [State.portIn8_halt, State.portIn8_ended]
  portOut8 _ _ h := by rwa [State.portOut8_halt, State.portOut8_ended]

/-- Settles O59: `exec_cs` and `exec_tf` for what only some instructions do, and what every instruction keeps for the
rest. -/
theorem onlyTheseWriteControlState : Obligations.OnlyTheseWriteControlState := by
  intro i s t he
  obtain ⟨hmem, hio, hhooks, hnow, hdebug, hinputs, hturns, hwait, hgrows⟩ :=
    (kept_hostSame s).exec i (HostSame.refl s) he
  obtain ⟨hhalt, hended⟩ := (kept_stopped s).exec i ⟨id, id⟩ he
  refine ⟨fun hne => ?_, fun h1 h0 => ?_, hmem, hio, hhooks, hnow, hdebug, hinputs, hturns, hwait, hhalt, hended,
    hgrows⟩
  · by_contra hc
    exact hne (exec_cs (Bool.eq_false_iff.2 hc) he)
  · by_contra ht
    exact absurd (h0.symm.trans (exec_tf (Bool.eq_false_iff.2 ht) he h1)) Bool.false_ne_true

end Sys2Proof.Machine

/-! SUPPORT. The invariant of the machine: it holds after reset, and each part of a turn keeps it (R51, R400). -/

namespace Sys2Proof.Machine

/-! ### Reset -/

/-- Settles O6: after `reset()` no prefix is pending and nothing is halted, and the devices hold the values of R511. -/
theorem resetMeetsInvariant : Obligations.ResetMeetsInvariant := by
  refine ⟨⟨reset_memory_wf, rfl, ?_⟩, rfl, fun h => absurd h (by decide)⟩
  exact ⟨rfl, rfl, rfl, by decide, by decide, Nat.le_refl _, .inl rfl⟩

/-! ### Instructions and `Halt` (R403) -/

/-- Fetching an instruction fetches some number of bytes (R17). -/
theorem State.fetchInstr_fetched {n : Nat} {bs : List Byte} {s t : State} {i : Instr}
    (h : State.fetchInstr n bs s = .ok (i, t)) : ∃ k, t = s.fetched k := by
  induction n generalizing bs s with
  | zero => cases h
  | succ n ih =>
    unfold State.fetchInstr at h
    split at h
    · cases h; exact ⟨1, rfl⟩
    · obtain ⟨k, hk⟩ := ih h
      exact ⟨k + 1, hk⟩
    · cases h
    · cases h

theorem State.fetchInstr_halt {n : Nat} {bs : List Byte} {s t : State} {i : Instr}
    (h : State.fetchInstr n bs s = .ok (i, t)) : t.halt = s.halt := by
  obtain ⟨k, rfl⟩ := State.fetchInstr_fetched h
  rw [State.fetched_eq]

/-- An instruction that starts unhalted ends halted only with interrupts enabled. -/
theorem exec_ifl_of_halt {i : Instr} {s t : State} (hs : s.halt = false) (he : exec i s = .next t)
    (ht : t.halt = true) : t.flags.ifl = true := by
  by_cases hh : i = .hlt
  · subst hh; cases he
    rw [State.haltNow_flags]
    exact State.ifl_of_haltNow hs ht
  · exact absurd (hs.symm.trans ((exec_halt hh he).symm.trans ht)) Bool.false_ne_true

/-- So does an instruction with its prefixes, none of which halts (R132). -/
theorem State.runInstr_ifl_of_halt {n : Nat} {s t : State} (hs : s.halt = false) (he : State.runInstr n s = .next t)
    (ht : t.halt = true) : t.flags.ifl = true := by
  induction n generalizing s with
  | zero => cases he
  | succ n ih =>
    unfold State.runInstr at he
    split at he
    · cases he
    · rename_i i u hf
      have hu : u.halt = false := (State.fetchInstr_halt hf).trans hs
      split at he
      · rename_i hi
        have hh : i ≠ .hlt := by rintro rfl; cases hi
        split at he
        · rename_i v hv
          exact ih ((exec_halt hh hv).trans hu) he
        · cases he
        · cases he
      · exact exec_ifl_of_halt hu he ht

/-! ### The parts of a step (R400, R402) -/

/-- The end of an instruction leaves no prefix pending, and a halt only with interrupts enabled (R400 item 7,
R412). -/
theorem State.finished_settled {s : State} (tf : Bool) (h : s.halt = true → s.flags.ifl = true) :
    (s.finished tf).pend = noPending ∧ ((s.finished tf).halt = true → (s.finished tf).flags.ifl = true) := by
  have hf := s.finished_spec tf
  split at hf
  · obtain ⟨-, hhalt, hpend, -⟩ := hf
    exact ⟨hpend, fun ht => absurd (hhalt.symm.trans ht) Bool.false_ne_true⟩
  · rw [hf]
    exact ⟨rfl, h⟩

/-- The interrupt check does nothing, or enters an interrupt and clears `Halt` (R402). -/
theorem State.interruptCheck_cases (s : State) :
    s.interruptCheck = s ∨
      ∃ v, s.interruptCheck =
        { ({ s with pic := (s.pic.ack v).2 } : State).interrupt (s.pic.ack v).1 with halt := false } := by
  unfold State.interruptCheck
  split
  · split
    exacts [.inl rfl, .inr ⟨_, rfl⟩]
  · exact .inl rfl

/-- Items 3 to 7 of a step: nothing while halted, and otherwise an instruction that runs and ends (R400, R403). -/
theorem State.instrPhase_cases {s t : State} (h : s.instrPhase = .next t) :
    (s.halt = true ∧ t = s) ∨
      (s.halt = false ∧ ∃ u, State.runInstr prefixLimit s.begun = .next u ∧ t = u.finished s.flags.tf) := by
  unfold State.instrPhase at h
  split at h
  · cases h
    exact .inl ⟨‹_›, rfl⟩
  · rename_i hh
    split at h
    · rename_i u hu
      cases h
      exact .inr ⟨Bool.eq_false_iff.2 hh, u, hu, rfl⟩
    · cases h
    · cases h

/-- A processor step that answers is the interrupt check and then the instruction (R400). -/
theorem State.instrPhase_of_procStep {s t : State} (h : s.procStep = .next t) :
    s.interruptCheck.instrPhase = .next t := by
  unfold State.procStep at h
  split at h
  · cases h
  · split at h
    · cases h
    · split at h
      · cases h
      · exact h

/-! ### Each part of a turn keeps the invariant -/

/-- Raising requests changes neither the vector base nor anything of the processor (R436). -/
theorem Inv.takeInput {s : State} (h : Inv s) : Inv s.takeInput := ⟨h.1.takeInput, h.2⟩

/-- Waking up needs no interrupts enabled. -/
theorem Inv.woken {s : State} (hd : DeviceSound s) (hp : s.pend = noPending) : Inv { s with halt := false } :=
  ⟨hd.congr rfl rfl rfl rfl, hp, fun ht => absurd ht Bool.false_ne_true⟩

theorem Inv.interruptCheck {s : State} (h : Inv s) : Inv s.interruptCheck := by
  obtain hc | ⟨v, hc⟩ := s.interruptCheck_cases
  · rwa [hc]
  · rw [hc]
    obtain ⟨⟨hmem, hbase, hcga⟩, hpend, -⟩ := h
    have hack : DeviceSound { s with pic := (s.pic.ack v).2 } := ⟨hmem, by rwa [Pic.base_ack], hcga⟩
    exact .woken (hack.interrupt _) ((State.interrupt_pend ..).trans hpend)

theorem Inv.instrPhase {s t : State} (h : Inv s) (he : s.instrPhase = .next t) : Inv t := by
  obtain ⟨-, rfl⟩ | ⟨hs, u, hu, rfl⟩ := State.instrPhase_cases he
  · exact h
  · have hd : DeviceSound u := kept_deviceSound.runInstr (s := s.begun) h.1 hu
    have hi : u.halt = true → u.flags.ifl = true := State.runInstr_ifl_of_halt (s := s.begun) hs hu
    exact ⟨kept_deviceSound.finished id _ hd, State.finished_settled _ hi⟩

/-- What ends a turn is the devices' own (R11, R480). -/
theorem Inv.afterStep {s : State} (h : Inv s) (e : Nat) : Inv (s.afterStep e) := by
  refine ⟨h.1.afterStep e, ?_⟩
  rw [(s.afterStep_spec e).2]
  exact h.2

/-- Settles O7: each part of the turn keeps the invariant. -/
theorem stepKeepsInvariant : Obligations.StepKeepsInvariant := by
  intro s t hs h
  unfold step State.turn at h
  split at h
  · rename_i u hu
    cases h
    exact (hs.takeInput.interruptCheck.instrPhase (State.instrPhase_of_procStep hu)).afterStep _
  · cases h
  · cases h

end Sys2Proof.Machine

/-! SUPPORT. Who owns an address or a port, and what an install changes of it (20_memory.md R84, R86, R93, R96). -/

namespace Sys2Proof.Machine

/-! ### Owner tables (R84, R93) -/

/-- Some address or port of a range of the bus has a property exactly when some number of the range has it. -/
theorem exists_bitVec_between_iff {w a b : Nat} {P : Nat → Prop} (hb : b < 2 ^ w) :
    (∃ x : BitVec w, a ≤ x.toNat ∧ x.toNat ≤ b ∧ P x.toNat) ↔ ∃ n, a ≤ n ∧ n ≤ b ∧ P n := by
  constructor
  · rintro ⟨x, h⟩
    exact ⟨x.toNat, h⟩
  · rintro ⟨n, ha, hn, hP⟩
    have hx : (BitVec.ofNat w n).toNat = n := by
      rw [BitVec.toNat_ofNat, Nat.mod_eq_of_lt (Nat.lt_of_le_of_lt hn hb)]
    exact ⟨BitVec.ofNat w n, hx.symm ▸ ha, hx.symm ▸ hn, hx.symm ▸ hP⟩

section
variable {ρ δ : Type} (first last : ρ → Nat) (dev : ρ → δ)

/-- The device that owns a number in a table of inclusive ranges: what `memOwner` and `ioOwner` both are. -/
def ownerIn (table : List ρ) (n : Nat) : Option δ :=
  (table.find? fun r => decide (first r ≤ n) && decide (n ≤ last r)).map dev

theorem ownerIn_ne_none_iff {table : List ρ} {n : Nat} :
    ownerIn first last dev table n ≠ none ↔ ∃ r ∈ table, first r ≤ n ∧ n ≤ last r := by
  simp [ownerIn]

/-- A range meets one of a table exactly when some number of it has an owner. -/
theorem any_rangesMeet_iff {table : List ρ} {a b : Nat} :
    (table.any fun r => rangesMeet (first r) (last r) a b) = true ↔
      ∃ n, a ≤ n ∧ n ≤ b ∧ ownerIn first last dev table n ≠ none := by
  simp only [List.any_eq_true, rangesMeet, decide_eq_true_eq, ownerIn_ne_none_iff]
  constructor
  · rintro ⟨r, hr, h⟩
    exact ⟨max (first r) a, by omega, by omega, r, hr, by omega, by omega⟩
  · rintro ⟨n, ha, hb, r, hr, h⟩
    exact ⟨r, hr, by omega⟩

/-- A range added to a table that has none of its numbers gets them all, and the others stay. -/
theorem ownerIn_append {table : List ρ} {r : ρ}
    (h : ¬∃ n, first r ≤ n ∧ n ≤ last r ∧ ownerIn first last dev table n ≠ none) (n : Nat) :
    ownerIn first last dev (table ++ [r]) n =
      if first r ≤ n ∧ n ≤ last r then some (dev r) else ownerIn first last dev table n := by
  have happ : ownerIn first last dev (table ++ [r]) n =
      (ownerIn first last dev table n).or (ownerIn first last dev [r] n) := by
    simp [ownerIn, List.find?_append, Option.map_or]
  rw [happ]
  split
  · rename_i hn
    have hnone : ownerIn first last dev table n = none := by
      by_contra ho
      exact h ⟨n, hn.1, hn.2, ho⟩
    rw [hnone, Option.none_or]
    simp [ownerIn, hn]
  · rename_i hn
    have hr : ownerIn first last dev [r] n = none := by
      by_contra ho
      obtain ⟨q, hq, hn'⟩ := (ownerIn_ne_none_iff first last dev).1 ho
      exact hn (List.mem_singleton.1 hq ▸ hn')
    rw [hr, Option.or_none]

/-- What an install does to a table: it finds the range in use, or the range gets its device and the rest stays. -/
theorem ownerIn_install (w : Nat) (table : List ρ) (r : ρ) (hr : last r < 2 ^ w) :
    if ∃ x : BitVec w, first r ≤ x.toNat ∧ x.toNat ≤ last r ∧ ownerIn first last dev table x.toNat ≠ none then
      (table.any fun q => rangesMeet (first q) (last q) (first r) (last r)) = true
    else
      (table.any fun q => rangesMeet (first q) (last q) (first r) (last r)) = false ∧
        ∀ x : BitVec w, ownerIn first last dev (table ++ [r]) x.toNat =
          if first r ≤ x.toNat ∧ x.toNat ≤ last r then some (dev r) else ownerIn first last dev table x.toNat := by
  have hx := exists_bitVec_between_iff (a := first r) (P := fun n => ownerIn first last dev table n ≠ none) hr
  split
  · rename_i h
    exact (any_rangesMeet_iff first last dev).2 (hx.1 h)
  · rename_i h
    have hfree := mt hx.2 h
    exact ⟨Bool.eq_false_iff.2 (mt (any_rangesMeet_iff first last dev).1 hfree),
      fun x => ownerIn_append first last dev hfree x.toNat⟩

end

/-! ### Installs (R86, R96) -/

/-- An install on the memory bus claims a free range of the bus, and fails on any other (R86). -/
theorem Platform.installMemoryDevice_spec (p : Platform) (dev : MemDevice) (first last : Nat) :
    if first ≤ last ∧ last < 2 ^ 20 then
      if ∃ a : Addr, first ≤ a.toNat ∧ a.toNat ≤ last ∧ memOwner p.memMap a ≠ none then
        p.installMemoryDevice dev first last = .error .addressOverlap
      else
        ∃ q, p.installMemoryDevice dev first last = .ok q ∧ q = { p with memMap := q.memMap } ∧
          ∀ a : Addr, memOwner q.memMap a = if first ≤ a.toNat ∧ a.toNat ≤ last then some dev else memOwner p.memMap a
    else p.installMemoryDevice dev first last = .error .badRange := by
  unfold Platform.installMemoryDevice
  by_cases hr : first ≤ last ∧ last < 2 ^ 20
  · have hbad : ¬(last < first ∨ 0xFFFFF < last) := by omega
    have h := ownerIn_install MemRegion.first MemRegion.last MemRegion.dev 20 p.memMap ⟨first, last, dev⟩ hr.2
    rw [if_pos hr, if_neg hbad]
    split at h
    case isTrue ho => exact (if_pos ho).mpr (if_pos h)
    case isFalse ho =>
      obtain ⟨hfree, howner⟩ := h
      exact (if_neg ho).mpr ⟨_, if_neg (Bool.eq_false_iff.1 hfree), rfl, howner⟩
  · rw [if_neg hr, if_pos (by omega)]

/-- An install on the IO bus claims a free range of the bus, and fails on any other (R96). -/
theorem Platform.installIoDevice_spec (p : Platform) (dev : IoDevice) (first last : Nat) :
    if first ≤ last ∧ last < 2 ^ 16 then
      if ∃ x : Word, first ≤ x.toNat ∧ x.toNat ≤ last ∧ ioOwner p.ioMap x ≠ none then
        p.installIoDevice dev first last = .error .portOverlap
      else
        ∃ q, p.installIoDevice dev first last = .ok q ∧ q = { p with ioMap := q.ioMap } ∧
          ∀ x : Word, ioOwner q.ioMap x = if first ≤ x.toNat ∧ x.toNat ≤ last then some dev else ioOwner p.ioMap x
    else p.installIoDevice dev first last = .error .badRange := by
  unfold Platform.installIoDevice
  by_cases hr : first ≤ last ∧ last < 2 ^ 16
  · have hbad : ¬(last < first ∨ 0xFFFF < last) := by omega
    have h := ownerIn_install IoRegion.first IoRegion.last IoRegion.dev 16 p.ioMap ⟨first, last, dev⟩ hr.2
    rw [if_pos hr, if_neg hbad]
    split at h
    case isTrue ho => exact (if_pos ho).mpr (if_pos h)
    case isFalse ho =>
      obtain ⟨hfree, howner⟩ := h
      exact (if_neg ho).mpr ⟨_, if_neg (Bool.eq_false_iff.1 hfree), rfl, howner⟩
  · rw [if_neg hr, if_pos (by omega)]

/-- Settles O15: the two installs by `Platform.installMemoryDevice_spec` and `Platform.installIoDevice_spec`; what is
refused after `reset()` is so by definition. -/
theorem installRoutesOrFails : Obligations.InstallRoutesOrFails :=
  ⟨Platform.installMemoryDevice_spec, Platform.installIoDevice_spec, fun _ =>
    ⟨fun _ _ _ => rfl, fun _ _ _ => rfl, fun _ => rfl, rfl, rfl, fun _ => ⟨rfl, rfl⟩⟩⟩

/-! ### The byte operations of the two buses (R85 to R89, R94, R98, R99) -/

/-- A byte operation on the memory bus is its owner's, or the open bus's (R85, R87 to R89). -/
theorem memoryBus_spec (s : State) (a : Addr) (v : Byte) :
    match memOwner s.memMap a with
    | some .ram => s.afterRead8 a = s ∧ (s.write8 a v).read8 a = v ∧ s.write8 a v = { s with mem := s.mem.set a.toNat v }
    | some .rom => s.afterRead8 a = s ∧ s.write8 a v = s
    | some .cga =>
      s.read8 a = s.cga.readByte a ∧ s.afterRead8 a = s ∧
        s.write8 a v = { s with cga := s.cga.moment.writeByte a v }
    | some (.other d) =>
      s.read8 a = Config.deviceRead s.devices d a ∧ s.afterRead8 a = { s with devices := .read d a :: s.devices } ∧
        s.write8 a v = { s with devices := .write d a v :: s.devices }
    | none => s.read8 a = 0xFF ∧ s.afterRead8 a = s ∧ s.write8 a v = s := by
  have hr : (∀ d, memOwner s.memMap a ≠ some (.other d)) → s.afterRead8 a = s := fun hn =>
    State.afterRead8_of_not fun ⟨d, hd⟩ => hn d hd
  have hb := s.byteStored_write8 a v
  unfold ByteStored at hb
  split
  case h_1 h => rw [h] at hb; exact ⟨hr (by simp [h]), hb, by rw [State.write8, h]⟩
  case h_2 h => exact ⟨hr (by simp [h]), by rw [State.write8, h]⟩
  case h_3 h => exact ⟨by rw [State.read8, h], hr (by simp [h]), by rw [State.write8, h]⟩
  case h_4 d h =>
    exact ⟨by rw [State.read8, h], by rw [State.afterRead8, readEvents, h]; rfl, by rw [State.write8, h]; rfl⟩
  case h_5 h => exact ⟨by rw [State.read8, h], hr (by simp [h]), by rw [State.write8, h]⟩

/-- A byte operation on the IO bus is its owner's, or the open bus's (R94, R98, R99). -/
theorem ioBus_spec (s : State) (p : Word) (v : Byte) :
    match ioOwner s.ioMap p with
    | some .pic => s.portIn8 p = (s.pic.portIn p, s) ∧ s.portOut8 p v = { s with pic := s.pic.portOut p v }
    | some .cga =>
      s.portIn8 p = ((s.cga.portIn p).1, { s with cga := (s.cga.portIn p).2 }) ∧
        s.portOut8 p v = { s with cga := s.cga.moment.portOut p v }
    | some (.other d) =>
      s.portIn8 p = (Config.deviceIn s.devices d p, { s with devices := .portIn d p :: s.devices }) ∧
        s.portOut8 p v = { s with devices := .portOut d p v :: s.devices }
    | none => s.portIn8 p = (0x00, s) ∧ s.portOut8 p v = s := by
  rw [State.portIn8, State.portOut8]
  cases ioOwner s.ioMap p with
  | none => exact ⟨rfl, rfl⟩
  | some d => cases d <;> exact ⟨rfl, rfl⟩

/-- Who owns the ports after reset (R97, R431, R463). -/
theorem ioOwner_defaultIoMap (p : Word) :
    ioOwner defaultIoMap p =
      if 0x3D0 ≤ p.toNat ∧ p.toNat ≤ 0x3DF then some .cga
      else if 0x20 ≤ p.toNat ∧ p.toNat ≤ 0x21 then some .pic
      else none := by
  unfold ioOwner defaultIoMap
  by_cases hpic : 0x20 ≤ p.toNat ∧ p.toNat ≤ 0x21
  · have hcga : ¬(0x3D0 ≤ p.toNat ∧ p.toNat ≤ 0x3DF) := by omega
    rw [if_neg hcga, if_pos hpic]
    simp [hpic]
  · by_cases hcga : 0x3D0 ≤ p.toNat ∧ p.toNat ≤ 0x3DF
    · rw [if_pos hcga]
      simp [← Bool.decide_and, hpic, hcga]
    · rw [if_neg hcga, if_neg hpic]
      simp only [List.find?_cons, ← Bool.decide_and, hpic, hcga]
      rfl

/-- Settles O16: `memoryBus_spec`, `ioBus_spec` and `ioOwner_defaultIoMap`. -/
theorem busDefaults : Obligations.BusDefaults := ⟨memoryBus_spec, ioBus_spec, ioOwner_defaultIoMap⟩

end Sys2Proof.Machine

/-! SUPPORT. Addresses of memory operands (20_memory.md R81, R90; 30_encoding.md R140, R142, R143). -/

namespace Sys2Proof.Machine

/-! ### Effective addresses (R140, R142) -/

/-- The register sum of an address form, and the segment that goes with it (R140, R142). -/
theorem baseSum_spec (s : State) {b : EaBase} {x : Nat} {q : SReg}
    (h : (b, x, q) ∈
      [(EaBase.bxsi, s.regs.bx.toNat + s.regs.si.toNat, SReg.ds), (.bxdi, s.regs.bx.toNat + s.regs.di.toNat, .ds),
        (.bpsi, s.regs.bp.toNat + s.regs.si.toNat, .ss), (.bpdi, s.regs.bp.toNat + s.regs.di.toNat, .ss),
        (.si, s.regs.si.toNat, .ds), (.di, s.regs.di.toNat, .ds), (.bp, s.regs.bp.toNat, .ss),
        (.bx, s.regs.bx.toNat, .ds)]) :
    (s.baseSum b).toNat = x % 65536 ∧ ∀ d, defaultSeg (.based b d) = q := by
  simp only [List.mem_cons, Prod.mk.injEq, List.not_mem_nil, or_false] at h
  have hone (r : Word) : r.toNat = r.toNat % 65536 := (Nat.mod_eq_of_lt r.isLt).symm
  rcases h with ⟨rfl, rfl, rfl⟩ | ⟨rfl, rfl, rfl⟩ | ⟨rfl, rfl, rfl⟩ | ⟨rfl, rfl, rfl⟩ | ⟨rfl, rfl, rfl⟩ |
    ⟨rfl, rfl, rfl⟩ | ⟨rfl, rfl, rfl⟩ | ⟨rfl, rfl, rfl⟩
  case inl | inr.inl | inr.inr.inl | inr.inr.inr.inl => exact ⟨BitVec.toNat_add .., fun _ => rfl⟩
  all_goals exact ⟨hone _, fun _ => rfl⟩

/-- A sign-extended byte added to a word, over integers modulo 2^16 (R140). -/
theorem toNat_add_signExtend (a : Word) (v : Byte) :
    ((a + v.signExtend 16).toNat : Int) = ((a.toNat : Int) + v.toInt) % 65536 := by
  have hv : v.signExtend 16 = BitVec.ofInt 16 v.toInt := rfl
  have ha := a.isLt
  rw [hv, BitVec.toNat_add, BitVec.toNat_ofInt]
  omega

/-! ### Linear addresses (R81, R90) -/

theorem lin_toNat (seg off : Word) : (lin seg off).toNat = (seg.toNat * 16 + off.toNat) % 2 ^ 20 := by
  simp [lin, BitVec.toNat_add, BitVec.toNat_shiftLeft, Nat.shiftLeft_eq]

/-- A memory operand lies in the pending override's segment, or in its default one (R143). -/
theorem State.memAddr_eq (s : State) (m : Mem) :
    s.memAddr m = lin (match s.pend.ovr with | none => s.getS (defaultSeg m) | some q => s.getS q) (s.ea m) := by
  rw [State.memAddr, State.eseg, State.segOr]
  cases s.pend.ovr <;> rfl

/-- The two bytes of a word operand, the high one at the next linear address modulo 2^20 (R90, R91, D9). -/
theorem State.read16_toNat (s : State) (a : Addr) :
    (s.read16 a).toNat =
      (s.read8 a).toNat + 256 * ((s.afterRead8 a).read8 (BitVec.ofNat 20 ((a.toNat + 1) % 2 ^ 20))).toNat := by
  have hnext : BitVec.ofNat 20 ((a.toNat + 1) % 2 ^ 20) = a + 1 := by
    apply BitVec.eq_of_toNat_eq
    simp [BitVec.toNat_add]
  rw [hnext, toNat_eq_hiByte_loByte, State.read16, loByte_mkWord, hiByte_mkWord]
  omega

/-- Settles O18: the forms of an address by `baseSum_spec`, and the rest by one lemma each. -/
theorem effectiveAddresses : Obligations.EffectiveAddresses := by
  refine ⟨fun s => ⟨fun d => ⟨rfl, rfl⟩, fun b x q h => ?_, s.memAddr_eq, s.read16_toNat⟩, lin_toNat, rfl, rfl, rfl⟩
  obtain ⟨hsum, hseg⟩ := baseSum_spec s h
  refine ⟨?_, fun v => ?_, fun v => ?_, hseg⟩
  · simpa [State.ea, dispValue] using hsum
  · rw [State.ea, dispValue, toNat_add_signExtend, hsum]
    omega
  · rw [State.ea, dispValue, BitVec.toNat_add, hsum, Nat.mod_add_mod]

end Sys2Proof.Machine

/-! SUPPORT. Input and output (20_memory.md R95, R98 to R100; 40_data_transfer.md R222 to R229). -/

namespace Sys2Proof.Machine

/-! ### What an output leaves (R99) -/

theorem Cga.portOut_vram (c : Cga) (p : Word) (v : Byte) : (c.portOut p v).vram = c.vram := by
  have hcrt : (c.writeCrt v).vram = c.vram := by
    simp only [Cga.writeCrt]
    split_ifs <;> rfl
  unfold Cga.portOut
  split
  case h_5 | h_6 | h_7 | h_8 => exact hcrt
  all_goals rfl

/-- An output writes no video memory: the tick before it and the port write leave `vram` (R99, R495). -/
theorem State.portOut8_vram (s : State) (p : Word) (v : Byte) : (s.portOut8 p v).cga.vram = s.cga.vram := by
  unfold State.portOut8
  split
  case h_2 => exact Cga.portOut_vram ..
  all_goals rfl

/-- Nothing differs but the devices. -/
def DevicesOnly (s t : State) : Prop := t = { s with pic := t.pic, cga := t.cga, devices := t.devices }

theorem DevicesOnly.trans {s t u : State} (h : DevicesOnly s t) (h' : DevicesOnly t u) : DevicesOnly s u := by
  unfold DevicesOnly at *
  rw [h', h]

/-- An output changes nothing but the devices (R95, R99). -/
theorem devicesOnly_portOut8 (s : State) (p : Word) (v : Byte) : DevicesOnly s (s.portOut8 p v) := by
  unfold State.portOut8
  split <;> rfl

/-! ### The shapes of `IN` and `OUT` (R222 to R229) -/

theorem readsPortByte_inAl {i : Instr} {s : State} {p : Word} (he : exec i s = .next (s.inAl p)) :
    ReadsPortByte i s p := by
  refine ⟨_, he, ?_, ?_, rfl⟩
  · simp [State.inAl, State.get8_set8]
  · obtain ⟨⟨h8, h16⟩, -⟩ := byteFrame_set8 (s.portIn8 p).2 .al (s.portIn8 p).1
    have hregs : (s.portIn8 p).2.regs = s.regs := State.portIn8_regs s p
    exact ⟨fun r hr => (h8 r hr).trans (State.get8_congr hregs r), hregs ▸ h16⟩

theorem readsPortWord_inAx {i : Instr} {s : State} {p : Word} (he : exec i s = .next (s.inAx p)) :
    ReadsPortWord i s p := by
  refine ⟨_, he, ?_, ?_, fun r hr => ?_, rfl⟩
  · simp [State.inAx, State.portIn16, State.get8, container, isHigh]
  · simp [State.inAx, State.portIn16, State.get8, container, isHigh]
  · have hregs : (s.portIn16 p).2.regs = s.regs := by simp [State.portIn16]
    exact ((wordFrame_set16 (s.portIn16 p).2 .ax _).1 r hr).trans (State.get16_congr hregs r)

theorem writesPortByte_portOut8 {i : Instr} {s : State} {p : Word}
    (he : exec i s = .next (s.portOut8 p (s.get8 .al))) : WritesPortByte i s p :=
  ⟨_, he, rfl, memoryOutside_of_eq (State.portOut8_mem ..) (State.portOut8_vram ..) (State.portOut8_memMap ..) _,
    devicesOnly_portOut8 ..⟩

theorem writesPortWord_portOut16 {i : Instr} {s : State} {p : Word}
    (he : exec i s = .next (s.portOut16 p (s.get16 .ax))) : WritesPortWord i s p := by
  refine ⟨_, he, rfl, memoryOutside_of_eq ?_ ?_ ?_ _, (devicesOnly_portOut8 ..).trans (devicesOnly_portOut8 ..)⟩
  · simp [State.portOut16]
  · simp [State.portOut16, State.portOut8_vram]
  · simp [State.portOut16]

/-- Settles O37: each form is one of the four shapes; a fixed port is its byte as a number. -/
theorem portInputOutput : Obligations.PortInputOutput := by
  intro s
  have hport (n : Byte) : BitVec.ofNat 16 n.toNat = n.setWidth 16 := BitVec.ofNat_toNat 16 n
  simp only [hport]
  exact ⟨⟨readsPortByte_inAl rfl, fun _ => readsPortByte_inAl rfl, readsPortWord_inAx rfl,
      fun _ => readsPortWord_inAx rfl⟩,
    writesPortByte_portOut8 rfl, fun _ => writesPortByte_portOut8 rfl, writesPortWord_portOut16 rfl,
    fun _ => writesPortWord_portOut16 rfl⟩

end Sys2Proof.Machine

/-! SUPPORT. Divide errors (41_arithmetic.md R256, R257, R262, R267), and the frame of an interrupt entry (R404). -/

namespace Sys2Proof.Machine

/-! ### The frame of an interrupt entry (R404) -/

theorem SystemSame.trans {s t u : State} {l l' : List Addr} (h : SystemSame s t l) (h' : SystemSame t u l') :
    SystemSame s u (l ++ l') := by
  obtain ⟨hsame, hcga, hgrows, hdev⟩ := h
  obtain ⟨hsame', hcga', hgrows', hdev'⟩ := h'
  have hmap : t.memMap = s.memMap := by rw [hsame]
  refine ⟨by rw [hsame', hsame]; rfl, fun hl => ?_, hgrows.trans hgrows', fun hn => ?_⟩
  · have ht : t.cga = s.cga := hcga fun b hb => hl b (List.mem_append_left _ hb)
    exact (hcga' fun b hb => hmap ▸ hl b (List.mem_append_right _ hb)).trans ht
  · exact (hdev' fun a ha => hn a ((PlatformOwns.congr hmap a).1 ha)).trans (hdev hn)

/-- The pushes of an interrupt entry change no part of the system but the cells of the frame. -/
theorem systemSame_framePushed (s : State) : SystemSame s (framePushed s) (entryCells s) := by
  have e4 : s.regs.sp - 2 - 2 = s.regs.sp - 4 := BitVec.sub_sub ..
  have e6 : s.regs.sp - 4 - 2 = s.regs.sp - 6 := BitVec.sub_sub ..
  have h1 := systemSame_push16 s s.flags.image
  have h2 := systemSame_push16 (s.push16 s.flags.image) s.cs
  have h3 := systemSame_push16 ((s.push16 s.flags.image).push16 s.cs) s.ip
  simp only [State.push16_regs, State.push16_ss, e4, e6] at h2 h3
  exact (h1.trans h2).trans h3

/-- Nor do the reads of the vector and the loads of `CS`, `IP` and the flags. -/
theorem systemSame_interrupt (s : State) (n : Byte) : SystemSame s (s.interrupt n) (entryCells s) := by
  have hframe := systemSame_framePushed s
  have hreads := (beside_afterRead16 (framePushed s) (ivtAddr n)).trans (beside_afterRead16 _ (ivtAddr n + 2))
  rw [State.interrupt_eq]
  generalize framePushed s = p at hframe hreads ⊢
  have hload : SystemSame p { (p.afterRead16 (ivtAddr n)).afterRead16 (ivtAddr n + 2) with
      ip := p.read16 (ivtAddr n), cs := (p.afterRead16 (ivtAddr n)).read16 (ivtAddr n + 2)
      flags := s.flags.masked } [] :=
    ⟨rfl, fun _ => rfl, hreads.2.1, hreads.2.2⟩
  simpa using hframe.trans hload

/-- An interrupt entry is a control transfer that writes `SP` and the six bytes of its frame (R404). -/
theorem transferFrame_interrupt (s : State) (n : Byte) : TransferFrame s (s.interrupt n) [.sp] (entryCells s) := by
  refine ⟨registersOutside_interrupt s n, ?_, ?_, ?_, memoryOutside_interrupt s n, systemSame_interrupt s n⟩ <;>
    simp [State.interrupt_eq, framePushed, State.afterRead16_eq]

theorem State.interrupt_draws (s : State) (n : Byte) : (s.interrupt n).draws = s.draws := by
  simp [State.interrupt_eq, framePushed, State.afterRead16_eq]

/-- A transfer after what is beside it. -/
theorem TransferFrame.beside {s u t : State} {l : List Reg16} {cells : List Addr} (hb : Beside s u)
    (h : TransferFrame u t l cells) : TransferFrame s t l cells := by
  obtain ⟨hreg, hds, hes, hss, hmem, hsys⟩ := h
  have hu := hb.1
  refine ⟨fun r hr => (hreg r hr).trans (State.get16_congr (by rw [hu]) r), ?_, ?_, ?_,
    hmem.earlier (by rw [hu]) (by rw [hu]) (by rw [hu]) hb.2.1 hsys.2.2.1, hsys.earlier hb⟩
  · rw [hds, hu]
  · rw [hes, hu]
  · rw [hss, hu]

/-- An instruction that reads its operand, if it has one, and then enters an interrupt (R105, R404). -/
theorem entersAfter_of_beside {i : Instr} {s u : State} {n : Byte} (he : exec i s = .next (u.interrupt n))
    (hb : Beside s u) (hd : u.draws = s.draws) : EntersAfter i s u n := by
  have hcells : entryCells u = entryCells s := by
    unfold entryCells
    rw [hb.1]
  exact ⟨_, he, entered_interrupt u n, hcells ▸ (transferFrame_interrupt u n).beside hb,
    (State.interrupt_draws u n).trans hd⟩

/-! ### What the divisions do (R256, R257, R267) -/

/-- A division enters interrupt 0 or completes (R256). -/
theorem State.div8_eq (s : State) (d : Byte) :
    s.div8 d =
      if d.toNat = 0 ∨ 0xFF < s.regs.ax.toNat / d.toNat then s.interrupt 0
      else s.quotient8 (BitVec.ofNat 8 (s.regs.ax.toNat / d.toNat)) (BitVec.ofNat 8 (s.regs.ax.toNat % d.toNat)) := by
  rw [State.div8, ← ite_or]
  rfl

theorem State.div16_eq (s : State) (d : Word) :
    s.div16 d =
      if d.toNat = 0 ∨ 0xFFFF < (s.regs.dx.toNat * 65536 + s.regs.ax.toNat) / d.toNat then s.interrupt 0
      else
        s.quotient16 (BitVec.ofNat 16 ((s.regs.dx.toNat * 65536 + s.regs.ax.toNat) / d.toNat))
          (BitVec.ofNat 16 ((s.regs.dx.toNat * 65536 + s.regs.ax.toNat) % d.toNat)) := by
  rw [State.div16, ← ite_or, State.dividend32_toNat]
  rfl

theorem signedDivideError_iff {w v : Nat} (d : BitVec w) (q : Int) :
    (d.toNat = 0 ∨ idivOverflow v q = true) ↔ (d.toInt = 0 ∨ Misfits v q = true) := by
  rw [← decide_eq_decide, signedDivideError_eq, Bool.decide_or, Bool.decide_eq_true]

/-- A signed division enters interrupt 0 or completes; which of the two a quotient of `-2^(w-1)` does is open (R257,
D18). -/
theorem State.idiv8_eq (s : State) (d : Byte) :
    s.idiv8 d =
      if d.toInt = 0 ∨ Misfits 8 (s.regs.ax.toInt.tdiv d.toInt) then s.interrupt 0
      else
        s.quotient8 (BitVec.ofInt 8 (s.regs.ax.toInt.tdiv d.toInt))
          (BitVec.ofInt 8 (s.regs.ax.toInt.tmod d.toInt)) := by
  rw [State.idiv8, ← ite_or]
  simp only [signedDivideError_iff]
  rfl

theorem State.idiv16_eq (s : State) (d : Word) :
    s.idiv16 d =
      if d.toInt = 0 ∨ Misfits 16 ((s.regs.dx ++ s.regs.ax).toInt.tdiv d.toInt) then s.interrupt 0
      else
        s.quotient16 (BitVec.ofInt 16 ((s.regs.dx ++ s.regs.ax).toInt.tdiv d.toInt))
          (BitVec.ofInt 16 ((s.regs.dx ++ s.regs.ax).toInt.tmod d.toInt)) := by
  rw [State.idiv16, ← ite_or]
  simp only [signedDivideError_iff]
  rfl

/-- A signed quotient out of range does not fit (R257). -/
theorem misfits_of_outOfRange {w : Nat} {q : Int} (h : q < -2 ^ (w - 1) ∨ 2 ^ (w - 1) ≤ q) : Misfits w q = true := by
  rcases h with h | h <;> simp [Misfits, OutOfRange, h]

/-! ### A division that completes (R256, R257) -/

/-- A word register written keeps the frame, with the register among those written. -/
theorem WordFrame.set16 {s t : State} {l : List Reg16} {cells : List Addr} (h : WordFrame s t l cells) (r : Reg16)
    (v : Word) : WordFrame s (t.set16 r v) (l ++ [r]) cells := by
  obtain ⟨hreg, hseg, hip, hmem, hsame, hcga, hgrows, hdev⟩ := h
  refine ⟨fun q hq => ?_, hseg, hip, hmem, congrArg (State.set16 · r v) hsame, hcga, hgrows, hdev⟩
  rw [List.mem_append, List.mem_singleton, not_or] at hq
  rw [State.get16_set16, if_neg hq.2, hreg q hq.1]

/-- A byte quotient and remainder in `AL` and `AH`, and nothing else but flags, after the read of the divisor. -/
theorem State.quotient8_spec {s u : State} (hb : Beside s u) (q r : Byte) :
    (u.quotient8 q r).get8 .al = q ∧ (u.quotient8 q r).get8 .ah = r ∧ WordFrame s (u.quotient8 q r) [.ax] [] := by
  refine ⟨loByte_mkWord q r, hiByte_mkWord q r, ?_⟩
  have hflags := (hb.trans (beside_setFlags u (u.flags.afterDiv u.freeFlags))).trans (beside_drew _ true)
  exact hflags.putsNothing.set16 .ax (mkWord q r)

/-- A word quotient and remainder in `AX` and `DX`, and nothing else but flags, after the read of the divisor. -/
theorem State.quotient16_spec {s u : State} (hb : Beside s u) (q r : Word) :
    (u.quotient16 q r).regs.ax = q ∧ (u.quotient16 q r).regs.dx = r ∧
      WordFrame s (u.quotient16 q r) [.ax, .dx] [] := by
  refine ⟨rfl, rfl, ?_⟩
  have hflags := (hb.trans (beside_setFlags u (u.flags.afterDiv u.freeFlags))).trans (beside_drew _ true)
  exact (hflags.putsNothing.set16 .ax q).set16 .dx r

/-! ### Divide errors (R267) -/

section
variable {i : Instr} {s u t x : State} {c : Prop} [Decidable c]

/-- An instruction that raises a divide error when `c` holds, and `c` holds. -/
theorem entersAfter_of_error (he : exec i s = .next x) (hx : x = if c then u.interrupt 0 else t) (hb : Beside s u)
    (hd : u.draws = s.draws) (hc : c) : EntersAfter i s u 0 := by
  rw [if_pos hc] at hx
  exact entersAfter_of_beside (hx ▸ he) hb hd

/-- An instruction that raises a divide error when `c` holds, and completes when it does not. -/
theorem entersAfter_or_completes {P : State → Prop} (he : exec i s = .next x)
    (hx : x = if c then u.interrupt 0 else t) (hb : Beside s u) (hd : u.draws = s.draws) (ht : P t) :
    EntersAfter i s u 0 ∨ Completes i s P := by
  by_cases hc : c
  · exact .inl (entersAfter_of_error he hx hb hd hc)
  · rw [if_neg hc] at hx
    exact .inr ⟨x, he, hx ▸ ht⟩

end

/-- The least quotient of a byte is an error, or -128 in `AL` (D18). -/
theorem idivRm8_min {s : State} {rm : RM Reg8} (hq : s.regs.ax.toInt.tdiv (s.rm8 rm).toInt = -128) :
    EntersAfter (.idivRm8 rm) s (s.afterRm8 rm) 0 ∨
      Completes (.idivRm8 rm) s fun t => (t.get8 .al).toInt = -128 ∧ WordFrame s t [.ax] [] := by
  have hb : Beside s (s.afterRm8 rm) := beside_afterLoad8 ..
  obtain ⟨hal, -, hframe⟩ := State.quotient8_spec hb (BitVec.ofInt 8 (s.regs.ax.toInt.tdiv (s.rm8 rm).toInt))
    (BitVec.ofInt 8 (s.regs.ax.toInt.tmod (s.rm8 rm).toInt))
  refine entersAfter_or_completes rfl (State.idiv8_eq ..) hb rfl ⟨(congrArg BitVec.toInt hal).trans ?_, hframe⟩
  rw [hq]; rfl

/-- The least quotient of a word is an error, or -32768 in `AX` (D18). -/
theorem idivRm16_min {s : State} {rm : RM Reg16} (hq : (s.regs.dx ++ s.regs.ax).toInt.tdiv (s.rm16 rm).toInt = -32768) :
    EntersAfter (.idivRm16 rm) s (s.afterRm16 rm) 0 ∨
      Completes (.idivRm16 rm) s fun t => t.regs.ax.toInt = -32768 ∧ WordFrame s t [.ax, .dx] [] := by
  have hb : Beside s (s.afterRm16 rm) := beside_afterLoad16 ..
  obtain ⟨hax, -, hframe⟩ := State.quotient16_spec hb
    (BitVec.ofInt 16 ((s.regs.dx ++ s.regs.ax).toInt.tdiv (s.rm16 rm).toInt))
    (BitVec.ofInt 16 ((s.regs.dx ++ s.regs.ax).toInt.tmod (s.rm16 rm).toInt))
  refine entersAfter_or_completes rfl (State.idiv16_eq ..) hb rfl ⟨(congrArg BitVec.toInt hax).trans ?_, hframe⟩
  rw [hq]; rfl

/-- Settles O48: `State.div8_eq` and the three like it say when a division enters interrupt 0, `idivRm8_min` and
`idivRm16_min` what the quotient that may fit does, and `AAM` with base 0 is the entry by definition. -/
theorem divideErrors : Obligations.DivideErrors := by
  intro s
  have hb8 (rm : RM Reg8) : Beside s (s.afterRm8 rm) := beside_afterLoad8 ..
  have hb16 (rm : RM Reg16) : Beside s (s.afterRm16 rm) := beside_afterLoad16 ..
  refine ⟨fun rm h => ?_, fun rm h => ?_, fun rm h => ?_, fun rm h => ?_, fun _ _ => idivRm8_min,
    fun _ _ => idivRm16_min, entersAfter_of_beside rfl (.refl s) rfl⟩
  · exact entersAfter_of_error rfl (State.div8_eq ..) (hb8 rm) rfl h
  · exact entersAfter_of_error rfl (State.div16_eq ..) (hb16 rm) rfl h
  · exact entersAfter_of_error rfl (State.idiv8_eq ..) (hb8 rm) rfl
      (h.imp_right fun hq => misfits_of_outOfRange hq)
  · exact entersAfter_of_error rfl (State.idiv16_eq ..) (hb16 rm) rfl
      (h.imp_right fun hq => misfits_of_outOfRange hq)

end Sys2Proof.Machine

/-! SUPPORT. The fields of opcode and ModR/M bytes, and the operand bytes read and written (30_encoding.md R133 to
R149). -/

namespace Sys2Proof.Machine

/-! ### Register numbers and fields (R31, R32, R133, R135, R140) -/

@[simp] theorem code_reg16Of : ∀ n, (reg16Of n).code = n := by decide
@[simp] theorem code_reg8Of : ∀ n, (reg8Of n).code = n := by decide
@[simp] theorem code_eaBaseOf : ∀ n, (eaBaseOf n).code = n := by decide
@[simp] theorem code_aluOpOf : ∀ n, (aluOpOf n).code = n := by decide
@[simp] theorem reg16Of_code (r : Reg16) : reg16Of r.code = r := by cases r <;> rfl
@[simp] theorem reg8Of_code (r : Reg8) : reg8Of r.code = r := by cases r <;> rfl
@[simp] theorem eaBaseOf_code (b : EaBase) : eaBaseOf b.code = b := by cases b <;> rfl

/-- A ModR/M byte is its three fields (R135). -/
theorem modrm_fields (m : Byte) : modrm (modOf m) (regOf m) (rmOf m) = m := by
  have hlow : modOf m ++ regOf m = m.extractLsb' 3 5 := BitVec.extractLsb'_append_extractLsb'_eq_extractLsb' rfl
  rw [modrm, hlow]
  exact BitVec.extractLsb'_append_extractLsb'

@[simp] theorem modOf_modrm (md : BitVec 2) (reg rm : BitVec 3) : modOf (modrm md reg rm) = md :=
  (BitVec.extractLsb'_append_eq_of_le (by decide)).trans BitVec.extractLsb'_append_eq_left

@[simp] theorem regOf_modrm (md : BitVec 2) (reg rm : BitVec 3) : regOf (modrm md reg rm) = reg :=
  (BitVec.extractLsb'_append_eq_of_le (by decide)).trans BitVec.extractLsb'_append_eq_right

@[simp] theorem rmOf_modrm (md : BitVec 2) (reg rm : BitVec 3) : rmOf (modrm md reg rm) = rm :=
  BitVec.extractLsb'_append_eq_right

/-- An opcode byte is its high five bits and its low three (R133). -/
theorem opReg_fields (op : Byte) : opReg (op.extractLsb' 3 5) (rmOf op) = op :=
  BitVec.extractLsb'_append_extractLsb'

/-! ### Reading what has been written -/

/-- Only the address form of `rm = 6` needs a displacement byte (R140). -/
theorem wf_based_none_iff {b : EaBase} : (Mem.based b .none).wf = true ↔ b.code ≠ 6#3 := by cases b <;> decide

@[simp] theorem wf_based_d8 (b : EaBase) (v : Byte) : (Mem.based b (.d8 v)).wf = true := by cases b <;> rfl
@[simp] theorem wf_based_d16 (b : EaBase) (v : Word) : (Mem.based b (.d16 v)).wf = true := by cases b <;> rfl

@[simp] theorem takeByte_cons (b : Byte) (rest : List Byte) : takeByte (b :: rest) = .ok (b, rest) := rfl

@[simp] theorem takeWord_encWord (v : Word) (rest : List Byte) : takeWord (encWord v ++ rest) = .ok (v, rest) := by
  simp [encWord, takeWord]

/-- The bytes of a memory operand are a ModR/M byte, with `mod` not 3, and what `takeMem` reads after it (R140, R141). -/
theorem encMem_eq_cons (reg : BitVec 3) {a : Mem} (ha : a.wf = true) :
    ∃ m tail, encMem reg a = m :: tail ∧ regOf m = reg ∧ modOf m ≠ 3#2 ∧
      ∀ rest, takeMem m (tail ++ rest) = .ok (a, rest) := by
  rcases a with d | ⟨b, _ | v | v⟩
  · exact ⟨_, _, rfl, by simp, by simp, fun rest => by simp [takeMem, takeWord, Except.map]⟩
  · refine ⟨_, _, rfl, by simp, by simp, fun rest => ?_⟩
    simp [takeMem, wf_based_none_iff.1 ha]
  · exact ⟨_, _, rfl, by simp, by simp, fun rest => by simp [takeMem, Except.map]⟩
  · exact ⟨_, _, rfl, by simp, by simp, fun rest => by simp [takeMem, takeWord, Except.map]⟩

/-- The bytes of an `r/m` operand whose registers have these numbers: `encRM8` and `encRM16` in one. -/
def encRM {ρ : Type} (code : ρ → BitVec 3) (reg : BitVec 3) : RM ρ → List Byte
  | .reg r => [modrm 3 reg (code r)]
  | .mem a => encMem reg a

theorem encRM8_eq (reg : BitVec 3) (rm : RM Reg8) : encRM8 reg rm = encRM Reg8.code reg rm := by cases rm <;> rfl
theorem encRM16_eq (reg : BitVec 3) (rm : RM Reg16) : encRM16 reg rm = encRM Reg16.code reg rm := by cases rm <;> rfl

/-- The bytes of an `r/m` operand are a ModR/M byte and what `takeRM` reads after it (R135). -/
theorem encRM_eq_cons {ρ : Type} {code : ρ → BitVec 3} {ofCode : BitVec 3 → ρ} (hc : ∀ r, ofCode (code r) = r)
    (reg : BitVec 3) {rm : RM ρ} (hw : rm.wf = true) :
    ∃ m tail, encRM code reg rm = m :: tail ∧ regOf m = reg ∧
      ∀ rest, takeRM ofCode m (tail ++ rest) = .ok (rm, rest) := by
  cases rm with
  | reg r => exact ⟨_, _, rfl, by simp, fun rest => by simp [takeRM, hc]⟩
  | mem a =>
    obtain ⟨m, tail, he, hr, hm, ht⟩ := encMem_eq_cons reg (a := a) hw
    exact ⟨m, tail, he, hr, fun rest => by simp [takeRM, hm, ht, Except.map]⟩

/-! ### Writing what has been read -/

theorem takeByte_eq_ok {bs : List Byte} {d : Byte × List Byte} (h : takeByte bs = .ok d) : d.1 :: d.2 = bs := by
  rcases bs with _ | ⟨b, rest⟩ <;> cases h
  rfl

theorem takeWord_eq_ok {bs : List Byte} {d : Word × List Byte} (h : takeWord bs = .ok d) : encWord d.1 ++ d.2 = bs := by
  rcases bs with _ | ⟨lo, _ | ⟨hi, rest⟩⟩ <;> cases h
  simp [encWord]

/-- An answer of the decoder carried on by a function comes from an answer. -/
theorem exists_of_map_eq_ok {α β : Type} {x : Except DecodeError α} {g : α → β} {b : β} (h : x.map g = .ok b) :
    ∃ a, x = .ok a ∧ g a = b := by
  cases x with
  | error e => cases h
  | ok a => exact ⟨a, rfl, by cases h; rfl⟩

/-- One part of the decoder after another answers when both do. -/
theorem exists_of_bind_eq_ok {α β : Type} {x : Except DecodeError α} {g : α → Except DecodeError β} {b : β}
    (h : x.bind g = .ok b) : ∃ a, x = .ok a ∧ g a = .ok b := by
  cases x with
  | error e => cases h
  | ok a => exact ⟨a, rfl, h⟩

/-- What `takeMem` reads is well formed, and its bytes are the ModR/M byte and the bytes taken (R140, R141). -/
theorem takeMem_eq_ok {m : Byte} {bs : List Byte} {d : Mem × List Byte} (hm : modOf m ≠ 3#2)
    (h : takeMem m bs = .ok d) : d.1.wf = true ∧ encMem (regOf m) d.1 ++ d.2 = m :: bs := by
  have hfields := modrm_fields m
  unfold takeMem at h
  split at h
  next h0 =>
    replace h0 : modOf m = 0#2 := BitVec.eq_of_toNat_eq h0
    split at h
    next h6 =>
      obtain ⟨v, hv, rfl⟩ := exists_of_map_eq_ok h
      rw [h0, show rmOf m = 6#3 from h6] at hfields
      exact ⟨rfl, by simp [encMem, hfields, ← takeWord_eq_ok hv, encWord]⟩
    next h6 =>
      cases h
      rw [h0] at hfields
      exact ⟨wf_based_none_iff.2 (by simpa using h6), by simp [encMem, hfields]⟩
  next h1 =>
    replace h1 : modOf m = 1#2 := BitVec.eq_of_toNat_eq h1
    obtain ⟨v, hv, rfl⟩ := exists_of_map_eq_ok h
    rw [h1] at hfields
    exact ⟨by simp, by simp [encMem, hfields, takeByte_eq_ok hv]⟩
  next h0 h1 =>
    have h2 : modOf m = 2#2 := by
      revert hm h0 h1
      generalize modOf m = md
      revert md
      decide
    obtain ⟨v, hv, rfl⟩ := exists_of_map_eq_ok h
    rw [h2] at hfields
    exact ⟨by simp, by simp [encMem, hfields, ← takeWord_eq_ok hv, encWord]⟩

/-- What `takeRM` reads is well formed, and its bytes are the ModR/M byte and the bytes taken (R135). -/
theorem takeRM_eq_ok {ρ : Type} {code : ρ → BitVec 3} {ofCode : BitVec 3 → ρ} (hc : ∀ n, code (ofCode n) = n)
    {m : Byte} {bs : List Byte} {d : RM ρ × List Byte} (h : takeRM ofCode m bs = .ok d) :
    d.1.wf = true ∧ encRM code (regOf m) d.1 ++ d.2 = m :: bs := by
  unfold takeRM at h
  split at h
  next h3 =>
    cases h
    have hfields := modrm_fields m
    rw [show modOf m = 3#2 from h3] at hfields
    exact ⟨rfl, by simp [encRM, hc, hfields]⟩
  next h3 =>
    obtain ⟨a, ha, rfl⟩ := exists_of_map_eq_ok h
    exact takeMem_eq_ok h3 ha

theorem takeRM8_eq_ok {m : Byte} {bs : List Byte} {d : RM Reg8 × List Byte} (h : takeRM reg8Of m bs = .ok d) :
    d.1.wf = true ∧ encRM8 (regOf m) d.1 ++ d.2 = m :: bs :=
  encRM8_eq _ _ ▸ takeRM_eq_ok code_reg8Of h

theorem takeRM16_eq_ok {m : Byte} {bs : List Byte} {d : RM Reg16 × List Byte} (h : takeRM reg16Of m bs = .ok d) :
    d.1.wf = true ∧ encRM16 (regOf m) d.1 ++ d.2 = m :: bs :=
  encRM16_eq _ _ ▸ takeRM_eq_ok code_reg16Of h

end Sys2Proof.Machine

/-! SUPPORT. Decoding inverts encoding (30_encoding.md R130, R150, R163): one lemma per layout of the opcode map, then
every instruction. -/

namespace Sys2Proof.Machine

/-! ### What a layout reads of the bytes written for it (R144 to R149) -/

theorem decode_cons {op : Byte} {l : Layout} (h : opcodeLayout op = some l) (rest : List Byte) :
    decode (op :: rest) = takeLayout op l rest := by
  simp [decode, h]

section
variable {op : Byte} (rest : List Byte)

theorem decode_plain {i : Instr} (h : opcodeLayout op = some (.plain i)) : decode ([op] ++ rest) = .ok (i, rest) :=
  decode_cons h rest

theorem decode_ib {f : Byte → Instr} (h : opcodeLayout op = some (.ib f)) (b : Byte) :
    decode ([op, b] ++ rest) = .ok (f b, rest) :=
  decode_cons h (b :: rest)

theorem decode_iw {f : Word → Instr} (h : opcodeLayout op = some (.iw f)) (v : Word) :
    decode ((op :: encWord v) ++ rest) = .ok (f v, rest) := by
  rw [List.cons_append, decode_cons h]
  simp [takeLayout, Except.map]

theorem decode_far {f : Word → Word → Instr} (h : opcodeLayout op = some (.far f)) (u v : Word) :
    decode ((op :: (encWord u ++ encWord v)) ++ rest) = .ok (f u v, rest) := by
  rw [List.cons_append, List.append_assoc, decode_cons h]
  simp [takeLayout, Except.map, Except.bind]

theorem decode_rmReg8 {f : RM Reg8 → Reg8 → Instr} (h : opcodeLayout op = some (.rmReg8 f)) {rm : RM Reg8}
    (hw : rm.wf = true) (r : Reg8) : decode ((op :: encRM8 r.code rm) ++ rest) = .ok (f rm r, rest) := by
  obtain ⟨m, tail, he, hr, ht⟩ := encRM_eq_cons reg8Of_code r.code hw
  rw [encRM8_eq, he, List.cons_append, decode_cons h]
  simp [takeLayout, ht, hr, Except.map, Except.bind]

theorem decode_rmReg16 {f : RM Reg16 → Reg16 → Instr} (h : opcodeLayout op = some (.rmReg16 f)) {rm : RM Reg16}
    (hw : rm.wf = true) (r : Reg16) : decode ((op :: encRM16 r.code rm) ++ rest) = .ok (f rm r, rest) := by
  obtain ⟨m, tail, he, hr, ht⟩ := encRM_eq_cons reg16Of_code r.code hw
  rw [encRM16_eq, he, List.cons_append, decode_cons h]
  simp [takeLayout, ht, hr, Except.map, Except.bind]

/-- Operands in the other order. -/
theorem decode_reg8Rm {f : Reg8 → RM Reg8 → Instr} (h : opcodeLayout op = some (.rmReg8 fun rm r => f r rm))
    (r : Reg8) {rm : RM Reg8} (hw : rm.wf = true) : decode ((op :: encRM8 r.code rm) ++ rest) = .ok (f r rm, rest) :=
  decode_rmReg8 rest h hw r

/-- Operands in the other order. -/
theorem decode_reg16Rm {f : Reg16 → RM Reg16 → Instr} (h : opcodeLayout op = some (.rmReg16 fun rm r => f r rm))
    (r : Reg16) {rm : RM Reg16} (hw : rm.wf = true) : decode ((op :: encRM16 r.code rm) ++ rest) = .ok (f r rm, rest) :=
  decode_rmReg16 rest h hw r

theorem decode_regMem {f : Reg16 → Mem → Instr} (h : opcodeLayout op = some (.regMem f)) (r : Reg16) {a : Mem}
    (hw : a.wf = true) : decode ((op :: encMem r.code a) ++ rest) = .ok (f r a, rest) := by
  obtain ⟨m, tail, he, hr, hm, ht⟩ := encMem_eq_cons r.code hw
  rw [he, List.cons_append, decode_cons h]
  simp [takeLayout, ht, hr, hm, Except.map, Except.bind]

theorem decode_esc {high : BitVec 3} (h : opcodeLayout op = some (.esc high)) (low : BitVec 3) {rm : RM Reg16}
    (hw : rm.wf = true) : decode ((op :: encRM16 low rm) ++ rest) = .ok (.escRm (high ++ low) rm, rest) := by
  obtain ⟨m, tail, he, hr, ht⟩ := encRM_eq_cons reg16Of_code low hw
  rw [encRM16_eq, he, List.cons_append, decode_cons h]
  simp [takeLayout, ht, hr, Except.map, Except.bind]

/-! The groups, whose `reg` field is an opcode extension (R151 to R156). -/

variable {g : BitVec 3 → Option GroupForm} (h : opcodeLayout op = some (.group g)) (n : BitVec 3)
include h

theorem decode_group {m : Byte} {form : GroupForm} (hg : g (regOf m) = some form) (bs : List Byte) :
    decode (op :: m :: bs) = takeGroup op m form bs := by
  rw [decode_cons h]
  simp [takeLayout, hg, Except.bind]

theorem decode_rm8 {f : RM Reg8 → Instr} (hg : g n = some (.rm8 f)) {rm : RM Reg8} (hw : rm.wf = true) :
    decode ((op :: encRM8 n rm) ++ rest) = .ok (f rm, rest) := by
  obtain ⟨m, tail, he, rfl, ht⟩ := encRM_eq_cons reg8Of_code n hw
  rw [encRM8_eq, he, List.cons_append, List.cons_append, decode_group h hg]
  simp [takeGroup, ht, Except.map]

theorem decode_rm16 {f : RM Reg16 → Instr} (hg : g n = some (.rm16 f)) {rm : RM Reg16} (hw : rm.wf = true) :
    decode ((op :: encRM16 n rm) ++ rest) = .ok (f rm, rest) := by
  obtain ⟨m, tail, he, rfl, ht⟩ := encRM_eq_cons reg16Of_code n hw
  rw [encRM16_eq, he, List.cons_append, List.cons_append, decode_group h hg]
  simp [takeGroup, ht, Except.map]

theorem decode_mem {f : Mem → Instr} (hg : g n = some (.mem f)) {a : Mem} (hw : a.wf = true) :
    decode ((op :: encMem n a) ++ rest) = .ok (f a, rest) := by
  obtain ⟨m, tail, he, rfl, hm, ht⟩ := encMem_eq_cons n hw
  rw [he, List.cons_append, List.cons_append, decode_group h hg]
  simp [takeGroup, ht, hm, Except.map]

theorem decode_rm8ib {f : RM Reg8 → Byte → Instr} (hg : g n = some (.rm8ib f)) {rm : RM Reg8} (hw : rm.wf = true)
    (b : Byte) : decode ((op :: (encRM8 n rm ++ [b])) ++ rest) = .ok (f rm b, rest) := by
  obtain ⟨m, tail, he, rfl, ht⟩ := encRM_eq_cons reg8Of_code n hw
  rw [encRM8_eq, he, List.cons_append, List.cons_append, List.cons_append, List.append_assoc, decode_group h hg]
  simp [takeGroup, ht, Except.map, Except.bind]

theorem decode_rm16ib {f : RM Reg16 → Byte → Instr} (hg : g n = some (.rm16ib f)) {rm : RM Reg16} (hw : rm.wf = true)
    (b : Byte) : decode ((op :: (encRM16 n rm ++ [b])) ++ rest) = .ok (f rm b, rest) := by
  obtain ⟨m, tail, he, rfl, ht⟩ := encRM_eq_cons reg16Of_code n hw
  rw [encRM16_eq, he, List.cons_append, List.cons_append, List.cons_append, List.append_assoc, decode_group h hg]
  simp [takeGroup, ht, Except.map, Except.bind]

theorem decode_rm16iw {f : RM Reg16 → Word → Instr} (hg : g n = some (.rm16iw f)) {rm : RM Reg16} (hw : rm.wf = true)
    (v : Word) : decode ((op :: (encRM16 n rm ++ encWord v)) ++ rest) = .ok (f rm v, rest) := by
  obtain ⟨m, tail, he, rfl, ht⟩ := encRM_eq_cons reg16Of_code n hw
  rw [encRM16_eq, he, List.cons_append, List.cons_append, List.cons_append, List.append_assoc, decode_group h hg]
  simp [takeGroup, ht, Except.map, Except.bind]

end

/-! ### The blocks with a register number in the opcode byte (R133, R150) -/

theorem opcodeLayout_incR16 (r : Reg16) : opcodeLayout (opReg 0x08 r.code) = some (.plain (.incR16 r)) := by
  cases r <;> rfl
theorem opcodeLayout_decR16 (r : Reg16) : opcodeLayout (opReg 0x09 r.code) = some (.plain (.decR16 r)) := by
  cases r <;> rfl
theorem opcodeLayout_pushR16 (r : Reg16) : opcodeLayout (opReg 0x0A r.code) = some (.plain (.pushR16 r)) := by
  cases r <;> rfl
theorem opcodeLayout_popR16 (r : Reg16) : opcodeLayout (opReg 0x0B r.code) = some (.plain (.popR16 r)) := by
  cases r <;> rfl
theorem opcodeLayout_movR8Imm8 (r : Reg8) : opcodeLayout (opReg 0x16 r.code) = some (.ib (.movR8Imm8 r)) := by
  cases r <;> rfl
theorem opcodeLayout_movR16Imm16 (r : Reg16) : opcodeLayout (opReg 0x17 r.code) = some (.iw (.movR16Imm16 r)) := by
  cases r <;> rfl

/-- The low three bits of the opcode of `ESC` are the high half of its operation number. -/
theorem opcodeLayout_esc (n : BitVec 3) : opcodeLayout (opReg 0x1B n) = some (.esc n) := by
  rw [← code_reg16Of n]
  cases reg16Of n <;> rfl

/-- The operation number of `ESC` is its two halves. -/
theorem escOp_fields (op : BitVec 6) : op.extractLsb' 3 3 ++ op.extractLsb' 0 3 = op :=
  BitVec.extractLsb'_append_extractLsb'

/-- Settles O1: the opcode byte of the instruction has a row in the map, and its layout reads what was written. -/
theorem decodeInvertsEncode : Obligations.DecodeInvertsEncode := by
  intro i rest hw
  cases i with
  | addRm8R8 rm r | orRm8R8 rm r | adcRm8R8 rm r | sbbRm8R8 rm r | andRm8R8 rm r | subRm8R8 rm r | xorRm8R8 rm r
  | cmpRm8R8 rm r | testRm8R8 rm r | xchgRm8R8 rm r | movRm8R8 rm r =>
    exact decode_rmReg8 rest rfl hw r
  | addR8Rm8 r rm | orR8Rm8 r rm | adcR8Rm8 r rm | sbbR8Rm8 r rm | andR8Rm8 r rm | subR8Rm8 r rm | xorR8Rm8 r rm
  | cmpR8Rm8 r rm | movR8Rm8 r rm =>
    exact decode_reg8Rm rest rfl r hw
  | addRm16R16 rm r | orRm16R16 rm r | adcRm16R16 rm r | sbbRm16R16 rm r | andRm16R16 rm r | subRm16R16 rm r
  | xorRm16R16 rm r | cmpRm16R16 rm r | testRm16R16 rm r | xchgRm16R16 rm r | movRm16R16 rm r =>
    exact decode_rmReg16 rest rfl hw r
  | addR16Rm16 r rm | orR16Rm16 r rm | adcR16Rm16 r rm | sbbR16Rm16 r rm | andR16Rm16 r rm | subR16Rm16 r rm
  | xorR16Rm16 r rm | cmpR16Rm16 r rm | movR16Rm16 r rm =>
    exact decode_reg16Rm rest rfl r hw
  | addAlImm8 b | orAlImm8 b | adcAlImm8 b | sbbAlImm8 b | andAlImm8 b | subAlImm8 b | xorAlImm8 b | cmpAlImm8 b
  | joRel8 b | jnoRel8 b | jbRel8 b | jnbRel8 b | jzRel8 b | jnzRel8 b | jbeRel8 b | jnbeRel8 b | jsRel8 b
  | jnsRel8 b | jpRel8 b | jnpRel8 b | jlRel8 b | jnlRel8 b | jleRel8 b | jnleRel8 b | testAlImm8 b | intImm8 b
  | aamImm8 b | aadImm8 b | loopnzRel8 b | loopzRel8 b | loopRel8 b | jcxzRel8 b | inAlImm8 b | inAxImm8 b
  | outImm8Al b | outImm8Ax b | jmpRel8 b =>
    exact decode_ib rest rfl b
  | addAxImm16 v | orAxImm16 v | adcAxImm16 v | sbbAxImm16 v | andAxImm16 v | subAxImm16 v | xorAxImm16 v
  | cmpAxImm16 v | movAlMoffs8 v | movAxMoffs16 v | movMoffs8Al v | movMoffs16Ax v | testAxImm16 v | retImm16 v
  | retfImm16 v | callRel16 v | jmpRel16 v =>
    exact decode_iw rest rfl v
  | pushEs | popEs | pushCs | pushSs | popSs | pushDs | popDs | prefixEs | daa | prefixCs | das | prefixSs | aaa
  | prefixDs | aas | nop | xchgAxCx | xchgAxDx | xchgAxBx | xchgAxSp | xchgAxBp | xchgAxSi | xchgAxDi | cbw
  | cwd | wait | pushf | popf | sahf | lahf | movsb | movsw | cmpsb | cmpsw | stosb | stosw | lodsb | lodsw
  | scasb | scasw | ret | retf | int3 | into | iret | xlat | inAlDx | inAxDx | outDxAl | outDxAx | prefixLock
  | prefixRepne | prefixRep | hlt | cmc | clc | stc | cli | sti | cld | std =>
    exact decode_plain rest rfl
  | incR16 r => exact decode_plain rest (opcodeLayout_incR16 r)
  | decR16 r => exact decode_plain rest (opcodeLayout_decR16 r)
  | pushR16 r => exact decode_plain rest (opcodeLayout_pushR16 r)
  | popR16 r => exact decode_plain rest (opcodeLayout_popR16 r)
  | addRm8Imm8 rm b | orRm8Imm8 rm b | adcRm8Imm8 rm b | sbbRm8Imm8 rm b | andRm8Imm8 rm b | subRm8Imm8 rm b
  | xorRm8Imm8 rm b | cmpRm8Imm8 rm b | addRm8Imm8Alias rm b | orRm8Imm8Alias rm b | adcRm8Imm8Alias rm b
  | sbbRm8Imm8Alias rm b | andRm8Imm8Alias rm b | subRm8Imm8Alias rm b | xorRm8Imm8Alias rm b
  | cmpRm8Imm8Alias rm b | movRm8Imm8 rm b | testRm8Imm8 rm b =>
    exact decode_rm8ib rest rfl _ rfl hw b
  | addRm16Imm16 rm v | orRm16Imm16 rm v | adcRm16Imm16 rm v | sbbRm16Imm16 rm v | andRm16Imm16 rm v
  | subRm16Imm16 rm v | xorRm16Imm16 rm v | cmpRm16Imm16 rm v | movRm16Imm16 rm v | testRm16Imm16 rm v =>
    exact decode_rm16iw rest rfl _ rfl hw v
  | addRm16Imm8 rm b | orRm16Imm8 rm b | adcRm16Imm8 rm b | sbbRm16Imm8 rm b | andRm16Imm8 rm b
  | subRm16Imm8 rm b | xorRm16Imm8 rm b | cmpRm16Imm8 rm b =>
    exact decode_rm16ib rest rfl _ rfl hw b
  | movRm16Es rm | movRm16Cs rm | movRm16Ss rm | movRm16Ds rm | movEsRm16 rm | movSsRm16 rm | movDsRm16 rm
  | popRm16 rm | rolRm16One rm | rorRm16One rm | rclRm16One rm | rcrRm16One rm | shlRm16One rm | shrRm16One rm
  | sarRm16One rm | rolRm16Cl rm | rorRm16Cl rm | rclRm16Cl rm | rcrRm16Cl rm | shlRm16Cl rm | shrRm16Cl rm
  | sarRm16Cl rm | notRm16 rm | negRm16 rm | mulRm16 rm | imulRm16 rm | divRm16 rm | idivRm16 rm | incRm16 rm
  | decRm16 rm | callRm16 rm | jmpRm16 rm | pushRm16 rm =>
    exact decode_rm16 rest rfl _ rfl hw
  | leaR16M r m | lesR16M r m | ldsR16M r m => exact decode_regMem rest rfl r hw
  | callFarPtr u v | jmpFarPtr u v => exact decode_far rest rfl u v
  | movR8Imm8 r b => exact decode_ib rest (opcodeLayout_movR8Imm8 r) b
  | movR16Imm16 r v => exact decode_iw rest (opcodeLayout_movR16Imm16 r) v
  | rolRm8One rm | rorRm8One rm | rclRm8One rm | rcrRm8One rm | shlRm8One rm | shrRm8One rm | sarRm8One rm
  | rolRm8Cl rm | rorRm8Cl rm | rclRm8Cl rm | rcrRm8Cl rm | shlRm8Cl rm | shrRm8Cl rm | sarRm8Cl rm | notRm8 rm
  | negRm8 rm | mulRm8 rm | imulRm8 rm | divRm8 rm | idivRm8 rm | incRm8 rm | decRm8 rm =>
    exact decode_rm8 rest rfl _ rfl hw
  | escRm op rm =>
    have h := decode_esc rest (opcodeLayout_esc (op.extractLsb' 3 3)) (op.extractLsb' 0 3) hw
    rwa [escOp_fields] at h
  | callFarM m | jmpFarM m => exact decode_mem rest rfl _ rfl hw

end Sys2Proof.Machine

/-! SUPPORT. Encoding inverts decoding, and what the decoder refuses (30_encoding.md R130, R149, R150, R160): what the
opcode map says of one opcode byte, checked once for every row, then what it reads. -/

namespace Sys2Proof.Machine

/-! ### The list of R160 by fields -/

/-- The opcode bytes of R160's list. -/
def unusedOpcode (op : Byte) : Bool :=
  let o := op.toNat
  o = 0x0F || (0x60 ≤ o && o ≤ 0x6F) || o = 0xC0 || o = 0xC1 || o = 0xC8 || o = 0xC9 || o = 0xD6 || o = 0xF1

/-- The opcode and ModR/M bytes of R160's list, by the `reg` and `mod` fields. -/
def refusedForm (op : Byte) (reg : BitVec 3) (md : BitVec 2) : Bool :=
  let o := op.toNat
  ((o = 0x8C || o = 0x8E) && 4 ≤ reg.toNat) || (o = 0x8E && reg.toNat = 1) ||
    ((o = 0x8F || o = 0xC6 || o = 0xC7) && reg.toNat ≠ 0) || (0xD0 ≤ o && o ≤ 0xD3 && reg.toNat = 6) ||
    ((o = 0xF6 || o = 0xF7) && reg.toNat = 1) || (o = 0xFE && 2 ≤ reg.toNat) || (o = 0xFF && reg.toNat = 7) ||
    (o = 0xFF && (reg.toNat = 3 || reg.toNat = 5) && md.toNat = 3) || ((o = 0x8D || o = 0xC4 || o = 0xC5) && md.toNat = 3)

theorem toNat_regOf (m : Byte) : (regOf m).toNat = m.toNat / 8 % 8 := by
  simp [regOf, BitVec.extractLsb'_toNat, Nat.shiftRight_eq_div_pow]

theorem toNat_modOf (m : Byte) : (modOf m).toNat = m.toNat / 64 := by
  simp only [modOf, BitVec.extractLsb'_toNat, Nat.shiftRight_eq_div_pow]
  omega

theorem invalidEncoding_eq (op m : Byte) :
    invalidEncoding op m = (unusedOpcode op || refusedForm op (regOf m) (modOf m)) := by
  simp only [invalidEncoding, unusedOpcode, refusedForm, toNat_regOf, toNat_modOf, Bool.or_assoc]

/-- The map leaves out exactly the opcode bytes of R160. -/
theorem isNone_opcodeLayout : ∀ op : Byte, (opcodeLayout op).isNone = unusedOpcode op := by decide

/-! ### What a row of the map says -/

/-- A row of a group table: the instruction it makes of its operands is encoded with this opcode byte and this `reg`
field, and the row refuses what R160 lists of it (R151 to R156, R160). For a row written out the premises hold by
evaluation, which is their default proof. -/
inductive GroupRow (op : Byte) (n : BitVec 3) : Option GroupForm → Prop where
  | unused (hr : ∀ md, refusedForm op n md = true := by decide) : GroupRow op n none
  | rm8 {f : RM Reg8 → Instr} (he : ∀ rm, encode (f rm) = op :: encRM8 n rm := by intros; rfl)
      (hw : ∀ rm, (f rm).wf = rm.wf := by intros; rfl) (hr : ∀ md, refusedForm op n md = false := by decide) :
      GroupRow op n (some (.rm8 f))
  | rm16 {f : RM Reg16 → Instr} (he : ∀ rm, encode (f rm) = op :: encRM16 n rm := by intros; rfl)
      (hw : ∀ rm, (f rm).wf = rm.wf := by intros; rfl) (hr : ∀ md, refusedForm op n md = false := by decide) :
      GroupRow op n (some (.rm16 f))
  | mem {f : Mem → Instr} (he : ∀ a, encode (f a) = op :: encMem n a := by intros; rfl)
      (hw : ∀ a, (f a).wf = a.wf := by intros; rfl)
      (hr : ∀ md, refusedForm op n md = decide (md.toNat = 3) := by decide) :
      GroupRow op n (some (.mem f))
  | rm8ib {f : RM Reg8 → Byte → Instr}
      (he : ∀ rm b, encode (f rm b) = op :: (encRM8 n rm ++ [b]) := by intros; rfl)
      (hw : ∀ rm b, (f rm b).wf = rm.wf := by intros; rfl) (hr : ∀ md, refusedForm op n md = false := by decide) :
      GroupRow op n (some (.rm8ib f))
  | rm16ib {f : RM Reg16 → Byte → Instr}
      (he : ∀ rm b, encode (f rm b) = op :: (encRM16 n rm ++ [b]) := by intros; rfl)
      (hw : ∀ rm b, (f rm b).wf = rm.wf := by intros; rfl) (hr : ∀ md, refusedForm op n md = false := by decide) :
      GroupRow op n (some (.rm16ib f))
  | rm16iw {f : RM Reg16 → Word → Instr}
      (he : ∀ rm v, encode (f rm v) = op :: (encRM16 n rm ++ encWord v) := by intros; rfl)
      (hw : ∀ rm v, (f rm v).wf = rm.wf := by intros; rfl) (hr : ∀ md, refusedForm op n md = false := by decide) :
      GroupRow op n (some (.rm16iw f))

/-- A row of the opcode map: the instruction its layout makes of its operands is encoded with this opcode byte, and the
layout refuses what R160 lists of it (R150, R160). The premises have default proofs as in `GroupRow`. -/
inductive Row (op : Byte) : Layout → Prop where
  | plain {i : Instr} (he : encode i = [op] := by rfl) (hw : i.wf = true := by rfl)
      (hr : ∀ reg md, refusedForm op reg md = false := by intros; rfl) : Row op (.plain i)
  | ib {f : Byte → Instr} (he : ∀ b, encode (f b) = [op, b] := by intros; rfl)
      (hw : ∀ b, (f b).wf = true := by intros; rfl)
      (hr : ∀ reg md, refusedForm op reg md = false := by intros; rfl) : Row op (.ib f)
  | iw {f : Word → Instr} (he : ∀ v, encode (f v) = op :: encWord v := by intros; rfl)
      (hw : ∀ v, (f v).wf = true := by intros; rfl)
      (hr : ∀ reg md, refusedForm op reg md = false := by intros; rfl) : Row op (.iw f)
  | far {f : Word → Word → Instr} (he : ∀ u v, encode (f u v) = op :: (encWord u ++ encWord v) := by intros; rfl)
      (hw : ∀ u v, (f u v).wf = true := by intros; rfl)
      (hr : ∀ reg md, refusedForm op reg md = false := by intros; rfl) : Row op (.far f)
  | rmReg8 {f : RM Reg8 → Reg8 → Instr}
      (he : ∀ rm r, encode (f rm r) = op :: encRM8 r.code rm := by intros; rfl)
      (hw : ∀ rm r, (f rm r).wf = rm.wf := by intros; rfl)
      (hr : ∀ reg md, refusedForm op reg md = false := by intros; rfl) : Row op (.rmReg8 f)
  | rmReg16 {f : RM Reg16 → Reg16 → Instr}
      (he : ∀ rm r, encode (f rm r) = op :: encRM16 r.code rm := by intros; rfl)
      (hw : ∀ rm r, (f rm r).wf = rm.wf := by intros; rfl)
      (hr : ∀ reg md, refusedForm op reg md = false := by intros; rfl) : Row op (.rmReg16 f)
  | regMem {f : Reg16 → Mem → Instr} (he : ∀ r a, encode (f r a) = op :: encMem r.code a := by intros; rfl)
      (hw : ∀ r a, (f r a).wf = a.wf := by intros; rfl)
      (hr : ∀ reg md, refusedForm op reg md = decide (md.toNat = 3) := by intros; rfl) : Row op (.regMem f)
  | esc {high : BitVec 3} (ho : opReg 0x1B high = op := by rfl)
      (hr : ∀ reg md, refusedForm op reg md = false := by intros; rfl) : Row op (.esc high)
  | group {g : BitVec 3 → Option GroupForm} (h : ∀ n, GroupRow op n (g n)) : Row op (.group g)

/-- A property of a three-bit field, value by value. -/
theorem forall_bitVec3 {p : BitVec 3 → Prop} (h0 : p 0) (h1 : p 1) (h2 : p 2) (h3 : p 3) (h4 : p 4) (h5 : p 5)
    (h6 : p 6) (h7 : p 7) : ∀ n, p n
  | ⟨⟨0, _⟩⟩ => h0 | ⟨⟨1, _⟩⟩ => h1 | ⟨⟨2, _⟩⟩ => h2 | ⟨⟨3, _⟩⟩ => h3
  | ⟨⟨4, _⟩⟩ => h4 | ⟨⟨5, _⟩⟩ => h5 | ⟨⟨6, _⟩⟩ => h6 | ⟨⟨7, _⟩⟩ => h7

/-! ### The group tables (R151 to R156) -/

theorem groupRow_aluRm8Imm8 : ∀ n, GroupRow 0x80 n (some (.rm8ib (aluRm8Imm8 (aluOpOf n)))) :=
  forall_bitVec3 .rm8ib .rm8ib .rm8ib .rm8ib .rm8ib .rm8ib .rm8ib .rm8ib
theorem groupRow_aluRm16Imm16 : ∀ n, GroupRow 0x81 n (some (.rm16iw (aluRm16Imm16 (aluOpOf n)))) :=
  forall_bitVec3 .rm16iw .rm16iw .rm16iw .rm16iw .rm16iw .rm16iw .rm16iw .rm16iw
theorem groupRow_aluRm8Imm8Alias : ∀ n, GroupRow 0x82 n (some (.rm8ib (aluRm8Imm8Alias (aluOpOf n)))) :=
  forall_bitVec3 .rm8ib .rm8ib .rm8ib .rm8ib .rm8ib .rm8ib .rm8ib .rm8ib
theorem groupRow_aluRm16Imm8 : ∀ n, GroupRow 0x83 n (some (.rm16ib (aluRm16Imm8 (aluOpOf n)))) :=
  forall_bitVec3 .rm16ib .rm16ib .rm16ib .rm16ib .rm16ib .rm16ib .rm16ib .rm16ib
theorem groupRow_movFromSreg : ∀ n, GroupRow 0x8C n (movFromSreg n) :=
  forall_bitVec3 .rm16 .rm16 .rm16 .rm16 .unused .unused .unused .unused
theorem groupRow_movToSreg : ∀ n, GroupRow 0x8E n (movToSreg n) :=
  forall_bitVec3 .rm16 .unused .rm16 .rm16 .unused .unused .unused .unused
theorem groupRow_popRm16 : ∀ n, GroupRow 0x8F n (onlyZero (.rm16 .popRm16) n) :=
  forall_bitVec3 .rm16 .unused .unused .unused .unused .unused .unused .unused
theorem groupRow_movRm8Imm8 : ∀ n, GroupRow 0xC6 n (onlyZero (.rm8ib .movRm8Imm8) n) :=
  forall_bitVec3 .rm8ib .unused .unused .unused .unused .unused .unused .unused
theorem groupRow_movRm16Imm16 : ∀ n, GroupRow 0xC7 n (onlyZero (.rm16iw .movRm16Imm16) n) :=
  forall_bitVec3 .rm16iw .unused .unused .unused .unused .unused .unused .unused
theorem groupRow_shiftRm8One : ∀ n, GroupRow 0xD0 n ((shiftOpOf n).map fun o => .rm8 (shiftRm8One o)) :=
  forall_bitVec3 .rm8 .rm8 .rm8 .rm8 .rm8 .rm8 .unused .rm8
theorem groupRow_shiftRm16One : ∀ n, GroupRow 0xD1 n ((shiftOpOf n).map fun o => .rm16 (shiftRm16One o)) :=
  forall_bitVec3 .rm16 .rm16 .rm16 .rm16 .rm16 .rm16 .unused .rm16
theorem groupRow_shiftRm8Cl : ∀ n, GroupRow 0xD2 n ((shiftOpOf n).map fun o => .rm8 (shiftRm8Cl o)) :=
  forall_bitVec3 .rm8 .rm8 .rm8 .rm8 .rm8 .rm8 .unused .rm8
theorem groupRow_shiftRm16Cl : ∀ n, GroupRow 0xD3 n ((shiftOpOf n).map fun o => .rm16 (shiftRm16Cl o)) :=
  forall_bitVec3 .rm16 .rm16 .rm16 .rm16 .rm16 .rm16 .unused .rm16
theorem groupRow_group3Byte : ∀ n, GroupRow 0xF6 n (group3Byte n) :=
  forall_bitVec3 .rm8ib .unused .rm8 .rm8 .rm8 .rm8 .rm8 .rm8
theorem groupRow_group3Word : ∀ n, GroupRow 0xF7 n (group3Word n) :=
  forall_bitVec3 .rm16iw .unused .rm16 .rm16 .rm16 .rm16 .rm16 .rm16
theorem groupRow_group4 : ∀ n, GroupRow 0xFE n (group4 n) :=
  forall_bitVec3 .rm8 .rm8 .unused .unused .unused .unused .unused .unused
theorem groupRow_group5 : ∀ n, GroupRow 0xFF n (group5 n) :=
  forall_bitVec3 .rm16 .rm16 .rm16 .mem .rm16 .mem .rm16 .unused

/-! ### The opcode map (R150) -/

/-- The block of the two-operand ALU forms, by operation and form (R266). -/
theorem row_aluLayout (o : AluOp) : ∀ k : BitVec 3, k < 6 → Row (modrm 0 o.code k) (aluLayout o k.toNat) := by
  cases o <;> exact forall_bitVec3 (fun _ => .rmReg8) (fun _ => .rmReg16) (fun _ => .rmReg8) (fun _ => .rmReg16)
    (fun _ => .ib) (fun _ => .iw) (fun h => absurd h (by decide)) (fun h => absurd h (by decide))

theorem row_incR16 : ∀ n, Row (opReg 0x08 n) (.plain (.incR16 (reg16Of n))) := by apply forall_bitVec3 <;> exact .plain
theorem row_decR16 : ∀ n, Row (opReg 0x09 n) (.plain (.decR16 (reg16Of n))) := by apply forall_bitVec3 <;> exact .plain
theorem row_pushR16 : ∀ n, Row (opReg 0x0A n) (.plain (.pushR16 (reg16Of n))) := by
  apply forall_bitVec3 <;> exact .plain
theorem row_popR16 : ∀ n, Row (opReg 0x0B n) (.plain (.popR16 (reg16Of n))) := by apply forall_bitVec3 <;> exact .plain
theorem row_jccLow : ∀ n, Row (opReg 0x0E n) (.ib (jccRel8 ((opReg 0x0E n).extractLsb' 0 4))) := by
  apply forall_bitVec3 <;> exact .ib
theorem row_jccHigh : ∀ n, Row (opReg 0x0F n) (.ib (jccRel8 ((opReg 0x0F n).extractLsb' 0 4))) := by
  apply forall_bitVec3 <;> exact .ib
theorem row_movR8Imm8 : ∀ n, Row (opReg 0x16 n) (.ib (.movR8Imm8 (reg8Of n))) := by apply forall_bitVec3 <;> exact .ib
theorem row_movR16Imm16 : ∀ n, Row (opReg 0x17 n) (.iw (.movR16Imm16 (reg16Of n))) := by
  apply forall_bitVec3 <;> exact .iw
theorem row_esc : ∀ n, Row (opReg 0x1B n) (.esc n) := by apply forall_bitVec3 <;> exact .esc

/-- The rows outside the blocks: those without a group table by evaluation, as the default proofs of `Row` do, and then the
group tables in the order of their opcodes. -/
theorem row_opcodeRow {n : Nat} {l : Layout} (h : opcodeRow n = some l) : Row (BitVec.ofNat 8 n) l := by
  unfold opcodeRow at h
  split at h
  all_goals cases h
  all_goals constructor
  any_goals (unfold autoParam; intros; rfl)
  · exact groupRow_aluRm8Imm8
  · exact groupRow_aluRm16Imm16
  · exact groupRow_aluRm8Imm8Alias
  · exact groupRow_aluRm16Imm8
  · exact groupRow_movFromSreg
  · exact groupRow_movToSreg
  · exact groupRow_popRm16
  · exact groupRow_movRm8Imm8
  · exact groupRow_movRm16Imm16
  · exact groupRow_shiftRm8One
  · exact groupRow_shiftRm16One
  · exact groupRow_shiftRm8Cl
  · exact groupRow_shiftRm16Cl
  · exact groupRow_group3Byte
  · exact groupRow_group3Word
  · exact groupRow_group4
  · exact groupRow_group5

/-- An opcode byte whose high five bits have this value. -/
theorem opReg_of_high {op : Byte} {b : BitVec 5} (h : (op.extractLsb' 3 5).toNat = b.toNat) : opReg b (rmOf op) = op := by
  rw [← BitVec.eq_of_toNat_eq h, opReg_fields]

theorem modOf_of_lt {op : Byte} (h : op < 0x40) : modOf op = 0 := by
  refine BitVec.eq_of_toNat_eq ?_
  rw [toNat_modOf]
  exact Nat.div_eq_of_lt h

/-- Every row of the opcode map is as `Row` says. -/
theorem row_opcodeLayout {op : Byte} {l : Layout} (h : opcodeLayout op = some l) : Row op l := by
  unfold opcodeLayout at h
  split at h
  next hop =>
    cases h
    have hrow := row_aluLayout (aluOpOf (regOf op)) (rmOf op) hop.2
    rwa [code_aluOpOf, ← modOf_of_lt hop.1, modrm_fields] at hrow
  next =>
    split at h
    next hb => cases h; simpa only [opReg_of_high (b := 0x08) hb] using row_incR16 (rmOf op)
    next hb => cases h; simpa only [opReg_of_high (b := 0x09) hb] using row_decR16 (rmOf op)
    next hb => cases h; simpa only [opReg_of_high (b := 0x0A) hb] using row_pushR16 (rmOf op)
    next hb => cases h; simpa only [opReg_of_high (b := 0x0B) hb] using row_popR16 (rmOf op)
    next hb => cases h; simpa only [opReg_of_high (b := 0x0E) hb] using row_jccLow (rmOf op)
    next hb => cases h; simpa only [opReg_of_high (b := 0x0F) hb] using row_jccHigh (rmOf op)
    next hb => cases h; simpa only [opReg_of_high (b := 0x16) hb] using row_movR8Imm8 (rmOf op)
    next hb => cases h; simpa only [opReg_of_high (b := 0x17) hb] using row_movR16Imm16 (rmOf op)
    next hb => cases h; simpa only [opReg_of_high (b := 0x1B) hb] using row_esc (rmOf op)
    next => simpa using row_opcodeRow h

/-! ### What is read of a row is encoded with its bytes -/

/-- What a row of a group table reads is encoded with the bytes it took (R149). -/
theorem encode_of_takeGroup {op m : Byte} {g : GroupForm} {bs rest : List Byte} {i : Instr}
    (hrow : GroupRow op (regOf m) (some g)) (h : takeGroup op m g bs = .ok (i, rest)) :
    i.wf = true ∧ encode i ++ rest = op :: m :: bs := by
  cases hrow with
  | rm8 he hw hr =>
    obtain ⟨d, hd, ⟨⟩⟩ := exists_of_map_eq_ok h
    obtain ⟨hwf, henc⟩ := takeRM8_eq_ok hd
    exact ⟨(hw _).trans hwf, by rw [he, List.cons_append, henc]⟩
  | rm16 he hw hr =>
    obtain ⟨d, hd, ⟨⟩⟩ := exists_of_map_eq_ok h
    obtain ⟨hwf, henc⟩ := takeRM16_eq_ok hd
    exact ⟨(hw _).trans hwf, by rw [he, List.cons_append, henc]⟩
  | mem he hw hr =>
    simp only [takeGroup] at h
    split at h
    · cases h
    next hm =>
      obtain ⟨d, hd, ⟨⟩⟩ := exists_of_map_eq_ok h
      obtain ⟨hwf, henc⟩ := takeMem_eq_ok hm hd
      exact ⟨(hw _).trans hwf, by rw [he, List.cons_append, henc]⟩
  | rm8ib he hw hr =>
    obtain ⟨d, hd, h⟩ := exists_of_bind_eq_ok h
    obtain ⟨e, heq, ⟨⟩⟩ := exists_of_map_eq_ok h
    obtain ⟨hwf, henc⟩ := takeRM8_eq_ok hd
    exact ⟨(hw _ _).trans hwf, by simp [he, takeByte_eq_ok heq, henc]⟩
  | rm16ib he hw hr =>
    obtain ⟨d, hd, h⟩ := exists_of_bind_eq_ok h
    obtain ⟨e, heq, ⟨⟩⟩ := exists_of_map_eq_ok h
    obtain ⟨hwf, henc⟩ := takeRM16_eq_ok hd
    exact ⟨(hw _ _).trans hwf, by simp [he, takeByte_eq_ok heq, henc]⟩
  | rm16iw he hw hr =>
    obtain ⟨d, hd, h⟩ := exists_of_bind_eq_ok h
    obtain ⟨e, heq, ⟨⟩⟩ := exists_of_map_eq_ok h
    obtain ⟨hwf, henc⟩ := takeRM16_eq_ok hd
    exact ⟨(hw _ _).trans hwf, by simp [he, takeWord_eq_ok heq, henc]⟩

/-- What a row of the opcode map reads is encoded with the bytes it took (R149). -/
theorem encode_of_takeLayout {op : Byte} {l : Layout} {bs rest : List Byte} {i : Instr}
    (hrow : Row op l) (h : takeLayout op l bs = .ok (i, rest)) : i.wf = true ∧ encode i ++ rest = op :: bs := by
  cases hrow with
  | plain he hw hr =>
    cases h
    exact ⟨hw, by rw [he]; rfl⟩
  | ib he hw hr =>
    obtain ⟨d, hd, ⟨⟩⟩ := exists_of_map_eq_ok h
    exact ⟨hw _, by rw [he, ← takeByte_eq_ok hd]; rfl⟩
  | iw he hw hr =>
    obtain ⟨d, hd, ⟨⟩⟩ := exists_of_map_eq_ok h
    exact ⟨hw _, by rw [he, ← takeWord_eq_ok hd]; rfl⟩
  | far he hw hr =>
    obtain ⟨d, hd, h⟩ := exists_of_bind_eq_ok h
    obtain ⟨e, heq, ⟨⟩⟩ := exists_of_map_eq_ok h
    exact ⟨hw _ _, by rw [he, ← takeWord_eq_ok hd, ← takeWord_eq_ok heq]; rfl⟩
  | rmReg8 he hw hr =>
    obtain ⟨m, hm, h⟩ := exists_of_bind_eq_ok h
    obtain ⟨d, hd, ⟨⟩⟩ := exists_of_map_eq_ok h
    obtain ⟨hwf, henc⟩ := takeRM8_eq_ok hd
    exact ⟨(hw _ _).trans hwf, by rw [he, code_reg8Of, List.cons_append, henc, takeByte_eq_ok hm]⟩
  | rmReg16 he hw hr =>
    obtain ⟨m, hm, h⟩ := exists_of_bind_eq_ok h
    obtain ⟨d, hd, ⟨⟩⟩ := exists_of_map_eq_ok h
    obtain ⟨hwf, henc⟩ := takeRM16_eq_ok hd
    exact ⟨(hw _ _).trans hwf, by rw [he, code_reg16Of, List.cons_append, henc, takeByte_eq_ok hm]⟩
  | regMem he hw hr =>
    obtain ⟨m, hm, h⟩ := exists_of_bind_eq_ok h
    split at h
    · cases h
    next h3 =>
      obtain ⟨d, hd, ⟨⟩⟩ := exists_of_map_eq_ok h
      obtain ⟨hwf, henc⟩ := takeMem_eq_ok h3 hd
      exact ⟨(hw _ _).trans hwf, by rw [he, code_reg16Of, List.cons_append, henc, takeByte_eq_ok hm]⟩
  | esc ho hr =>
    obtain ⟨m, hm, h⟩ := exists_of_bind_eq_ok h
    obtain ⟨d, hd, ⟨⟩⟩ := exists_of_map_eq_ok h
    obtain ⟨hwf, henc⟩ := takeRM16_eq_ok hd
    refine ⟨hwf, ?_⟩
    rw [encode, BitVec.extractLsb'_append_eq_left, BitVec.extractLsb'_append_eq_right, ho, List.cons_append,
      henc, takeByte_eq_ok hm]
  | group hg =>
    obtain ⟨m, hm, h⟩ := exists_of_bind_eq_ok h
    split at h
    · cases h
    next form hform =>
      exact takeByte_eq_ok hm ▸ encode_of_takeGroup (hform ▸ hg (regOf m.1)) h

/-- Settles O2: what is read of a row of the opcode map is encoded with the bytes read, `encode_of_takeLayout`. -/
theorem encodeInvertsDecode : Obligations.EncodeInvertsDecode := by
  intro bs i rest h
  rcases bs with _ | ⟨op, bs⟩
  · cases h
  cases hl : opcodeLayout op with
  | none => simp [decode, hl] at h
  | some l => exact encode_of_takeLayout (row_opcodeLayout hl) (decode_cons hl bs ▸ h)

end Sys2Proof.Machine

/-! SUPPORT. What the decoder refuses when the bytes do not run out (30_encoding.md R160). -/

namespace Sys2Proof.Machine

/-! ### Operand bytes that are there are read -/

/-- A part of the decoder answers where there are n bytes, and takes no more than these. -/
def Enough {α : Type} (n : Nat) (f : List Byte → Except DecodeError (α × List Byte)) : Prop :=
  ∀ bs, n ≤ bs.length → ∃ d, f bs = .ok d ∧ bs.length ≤ d.2.length + n

theorem Enough.ok {α : Type} (a : α) : Enough 0 fun bs => .ok (a, bs) := fun _ _ => ⟨_, rfl, Nat.le_refl _⟩

theorem Enough.mono {α : Type} {n k : Nat} {f : List Byte → Except DecodeError (α × List Byte)} (h : Enough n f)
    (hk : n ≤ k) : Enough k f := fun bs hb => by
  obtain ⟨d, hd, hn⟩ := h bs (hk.trans hb)
  exact ⟨d, hd, by omega⟩

theorem Enough.bind {α β : Type} {n k : Nat} {f : List Byte → Except DecodeError (α × List Byte)}
    {g : α → List Byte → Except DecodeError (β × List Byte)} (hf : Enough n f) (hg : ∀ a, Enough k (g a)) :
    Enough (n + k) fun bs => (f bs).bind fun d => g d.1 d.2 := fun bs hb => by
  obtain ⟨d, hd, hn⟩ := hf bs (by omega)
  obtain ⟨e, he, hk⟩ := hg d.1 d.2 (by omega)
  exact ⟨e, by simp [hd, Except.bind, he], by omega⟩

theorem Enough.map {α β : Type} {n : Nat} {f : List Byte → Except DecodeError (α × List Byte)} (hf : Enough n f)
    (g : α → β) : Enough n fun bs => (f bs).map fun d => (g d.1, d.2) := fun bs hb => by
  obtain ⟨d, hd, hn⟩ := hf bs hb
  exact ⟨(g d.1, d.2), by simp [hd, Except.map], hn⟩

theorem enough_takeByte : Enough 1 takeByte := by
  rintro (_ | ⟨b, rest⟩) hb
  · simp at hb
  · exact ⟨_, rfl, by simp⟩

theorem enough_takeWord : Enough 2 takeWord := by
  rintro (_ | ⟨lo, _ | ⟨hi, rest⟩⟩) hb
  · simp at hb
  · simp at hb
  · exact ⟨_, rfl, by simp⟩

theorem enough_takeMem (m : Byte) : Enough 2 (takeMem m) := by
  unfold takeMem
  split
  · split
    · exact enough_takeWord.map _
    · exact (Enough.ok _).mono (by omega)
  · exact (enough_takeByte.map fun v => (.based (eaBaseOf (rmOf m)) (.d8 v) : Mem)).mono (by omega)
  · exact enough_takeWord.map fun v => (.based (eaBaseOf (rmOf m)) (.d16 v) : Mem)

theorem enough_takeRM {ρ : Type} (f : BitVec 3 → ρ) (m : Byte) : Enough 2 (takeRM f m) := by
  unfold takeRM
  split
  · exact (Enough.ok _).mono (by omega)
  · exact (enough_takeMem m).map _

/-! ### The refusals of a row -/

/-- Where there are enough bytes nothing is refused. -/
theorem Enough.error_iff {α : Type} {n : Nat} {f : List Byte → Except DecodeError (α × List Byte)} (hf : Enough n f)
    {bs : List Byte} (hb : n ≤ bs.length) {b : Bool} (h : b = false) : (∃ e, f bs = .error e) ↔ b = true := by
  obtain ⟨d, hd, -⟩ := hf bs hb
  simp [hd, h]

/-- An operand in memory only is refused exactly in its register form (R160). -/
theorem mem_error_iff {α : Type} {m : Byte} {bs : List Byte} (e : DecodeError) (f : Mem → α) (hb : 2 ≤ bs.length) :
    (∃ e', (if modOf m = 3 then .error e else (takeMem m bs).map fun d => (f d.1, d.2)) = .error e') ↔
      decide ((modOf m).toNat = 3) = true := by
  obtain ⟨d, hd, -⟩ := (enough_takeMem m).map f bs hb
  have h3 : modOf m = 3#2 ↔ (modOf m).toNat = 3 := BitVec.toNat_inj.symm
  by_cases hm : modOf m = 3#2 <;> simp [hm, hd, ← h3]

/-- With its operand bytes there, a row of a group table refuses what R160 lists of it. -/
theorem takeGroup_error_iff {op m : Byte} {g : GroupForm} {bs : List Byte} (hrow : GroupRow op (regOf m) (some g))
    (hb : 4 ≤ bs.length) :
    (∃ e, takeGroup op m g bs = .error e) ↔ refusedForm op (regOf m) (modOf m) = true := by
  cases hrow with
  | rm8 he hw hr => exact ((enough_takeRM _ m).map _).error_iff (by omega) (hr _)
  | rm16 he hw hr => exact ((enough_takeRM _ m).map _).error_iff (by omega) (hr _)
  | mem he hw hr => exact hr _ ▸ mem_error_iff _ _ (by omega)
  | rm8ib he hw hr => exact ((enough_takeRM _ m).bind fun a => enough_takeByte.map _).error_iff (by omega) (hr _)
  | rm16ib he hw hr => exact ((enough_takeRM _ m).bind fun a => enough_takeByte.map _).error_iff (by omega) (hr _)
  | rm16iw he hw hr => exact ((enough_takeRM _ m).bind fun a => enough_takeWord.map _).error_iff (by omega) (hr _)

/-- With the bytes there, a row of the opcode map refuses what R160 lists of it. -/
theorem takeLayout_error_iff {op m : Byte} {l : Layout} {bs : List Byte} (hrow : Row op l) (hb : 4 ≤ bs.length) :
    (∃ e, takeLayout op l (m :: bs) = .error e) ↔ refusedForm op (regOf m) (modOf m) = true := by
  have h2 : 2 ≤ bs.length := by omega
  have h4 : 4 ≤ (m :: bs).length := by simp; omega
  cases hrow with
  | plain he hw hr => exact (Enough.ok _).error_iff (Nat.zero_le _) (hr _ _)
  | ib he hw hr => exact (enough_takeByte.map _).error_iff (Nat.le_trans (by decide) h4) (hr _ _)
  | iw he hw hr => exact (enough_takeWord.map _).error_iff (Nat.le_trans (by decide) h4) (hr _ _)
  | far he hw hr => exact (enough_takeWord.bind fun u => enough_takeWord.map _).error_iff h4 (hr _ _)
  | @rmReg8 f he hw hr => exact ((enough_takeRM _ m).map fun a => f a (reg8Of (regOf m))).error_iff h2 (hr _ _)
  | @rmReg16 f he hw hr => exact ((enough_takeRM _ m).map fun a => f a (reg16Of (regOf m))).error_iff h2 (hr _ _)
  | regMem he hw hr => exact hr _ _ ▸ mem_error_iff _ _ h2
  | esc ho hr => exact ((enough_takeRM _ m).map _).error_iff h2 (hr _ _)
  | @group g hg =>
    have hrow := hg (regOf m)
    cases hform : g (regOf m) with
    | none =>
      rw [hform] at hrow
      cases hrow with
      | unused hr => simp [takeLayout, Except.bind, hform, hr]
    | some form =>
      have h := takeGroup_error_iff (hform ▸ hrow) hb
      simpa [takeLayout, Except.bind, hform] using h

/-- Settles O3: the opcode bytes without a row are those of `isNone_opcodeLayout`, and what a row refuses is
`takeLayout_error_iff`. -/
theorem invalidEncodings : Obligations.InvalidEncodings := by
  intro op m rest hlen
  rw [invalidEncoding_eq, ← isNone_opcodeLayout]
  cases hl : opcodeLayout op with
  | none => simp [decode, hl]
  | some l =>
    rw [decode_cons hl, takeLayout_error_iff (row_opcodeLayout hl) (by omega)]
    simp

end Sys2Proof.Machine

/-! SUPPORT. Prefix bytes before an instruction, and a step on bytes that are no instruction (30_encoding.md R131, R132,
R160; 60_exceptions.md R410). -/

namespace Sys2Proof.Machine

/-! ### Prefix bytes (R131) -/

theorem isPrefix_iff {p : Instr} :
    p.isPrefix = true ↔ p = .prefixEs ∨ p = .prefixCs ∨ p = .prefixSs ∨ p = .prefixDs ∨ p = .prefixLock ∨
      p = .prefixRepne ∨ p = .prefixRep := by
  constructor
  · intro h
    unfold Instr.isPrefix at h
    split at h <;> simp_all
  · rintro (rfl | rfl | rfl | rfl | rfl | rfl | rfl) <;> rfl

/-- A prefix is one byte. -/
theorem exists_encode_of_isPrefix {p : Instr} (hp : p.isPrefix = true) : ∃ b, encode p = [b] := by
  rcases isPrefix_iff.1 hp with rfl | rfl | rfl | rfl | rfl | rfl | rfl <;> exact ⟨_, rfl⟩

theorem decode_of_isPrefix {p : Instr} (hp : p.isPrefix = true) : decode (encode p) = .ok (p, []) := by
  have hw : p.wf = true := by rcases isPrefix_iff.1 hp with rfl | rfl | rfl | rfl | rfl | rfl | rfl <;> rfl
  simpa using decodeInvertsEncode p [] hw

@[simp] theorem gathered_nil (q : Pending) : gathered q [] = q := by simp [gathered]

/-- Prefixes gathered in two runs are gathered in one (R132). -/
theorem gathered_append (q : Pending) (ps rs : List Instr) : gathered q (ps ++ rs) = gathered (gathered q ps) rs := by
  simp [gathered, List.getLast?_append, Option.or_assoc, Bool.or_assoc]

/-- What a prefix byte does is what gathering it says (R132). -/
theorem exec_of_isPrefix {p : Instr} (hp : p.isPrefix = true) (s : State) :
    exec p s = .next { s with pend := gathered s.pend [p] } := by
  rcases isPrefix_iff.1 hp with rfl | rfl | rfl | rfl | rfl | rfl | rfl <;>
    simp [exec, execPrefixEs, execPrefixCs, execPrefixSs, execPrefixDs, execPrefixLock, execPrefixRepne, execPrefixRep,
      State.override, State.repeatPrefix, gathered, overrideOf, repeatOf]

/-! ### Fetching and the pending prefixes (R17) -/

theorem State.fetched_pend (s : State) (n : Nat) : (s.fetched n).pend = s.pend := by rw [State.fetched_eq]

/-- Fetching does not look at the pending prefixes. -/
theorem State.fetched_setPend (s : State) (q : Pending) (n : Nat) :
    ({ s with pend := q } : State).fetched n = { s.fetched n with pend := q } := by simp only [State.fetched_eq]

theorem State.codeBytes_setPend (s : State) (q : Pending) (n : Nat) :
    ({ s with pend := q } : State).codeBytes n = s.codeBytes n :=
  FetchesAs.codeBytes (s := s) (t := { s with pend := q }) ⟨rfl, rfl, rfl, rfl, rfl, rfl⟩ n

/-- A prefix byte is fetched and gathered, and the step goes on (R132). -/
theorem State.runInstr_of_isPrefix {s : State} {p : Instr} (k : Nat) (hp : p.isPrefix = true)
    (hb : s.codeBytes 1 = encode p) :
    State.runInstr (k + 1) s = State.runInstr k { s.fetched 1 with pend := gathered s.pend [p] } := by
  rw [State.runInstr, State.fetchInstr_of_decode (hb ▸ decode_of_isPrefix hp)]
  simp only [hp, if_true, exec_of_isPrefix hp, State.fetched_pend]

/-- A run of prefix bytes and the instruction after it, within the fuel (R132). -/
theorem State.runInstr_of_prefixes {i : Instr} {n : Nat} (hi : i.isPrefix = false) (k : Nat) (ps : List Instr) :
    ∀ s : State, (∀ p ∈ ps, p.isPrefix = true) → s.codeBytes ps.length = ps.flatMap encode →
      decode ((s.fetched ps.length).codeBytes n) = .ok (i, []) →
      State.runInstr (k + 1 + ps.length) s = exec i { s.fetched (ps.length + n) with pend := gathered s.pend ps } := by
  induction ps with
  | nil =>
    intro s _ _ hd
    rw [gathered_nil, List.length_nil, Nat.zero_add, ← State.fetched_pend s n]
    exact State.runInstr_of_decode k hd hi
  | cons p ps ih =>
    intro s hps hb hd
    have hp : p.isPrefix = true := hps p List.mem_cons_self
    obtain ⟨b, he⟩ := exists_encode_of_isPrefix hp
    rw [List.length_cons, Nat.add_comm, List.flatMap_cons, State.codeBytes_add] at hb
    obtain ⟨hb1, hbs⟩ := List.append_inj hb (by simp [he])
    rw [List.length_cons, Nat.add_comm, State.fetched_add] at hd
    rw [List.length_cons, ← Nat.add_assoc, State.runInstr_of_isPrefix _ hp hb1, ih]
    · rw [State.fetched_setPend, ← State.fetched_add, ← gathered_append, ← Nat.add_assoc, Nat.add_comm 1]
      rfl
    · exact fun q hq => hps q (List.mem_cons_of_mem _ hq)
    · rw [State.codeBytes_setPend, hbs]
    · rw [State.fetched_setPend, State.codeBytes_setPend, hd]

/-- Settles O9, by induction on the prefix bytes: `State.runInstr_of_prefixes`. -/
theorem prefixesGather : Obligations.PrefixesGather := by
  intro s ps i n hps hlen hb hd hi
  obtain ⟨k, hk⟩ := Nat.exists_eq_add_of_lt hlen
  rw [hk, show ps.length + k + 1 = k + 1 + ps.length by omega]
  exact State.runInstr_of_prefixes hi k ps s hps hb hd

/-! ### Bytes that are no instruction (R160, R410) -/

/-- What is fetched has been decoded from the bytes that were read. -/
theorem State.decode_of_fetchInstr {n : Nat} {bs : List Byte} {s u : State} {i : Instr}
    (h : State.fetchInstr n bs s = .ok (i, u)) : ∃ k ≤ n, ∃ rest, decode (bs ++ s.codeBytes k) = .ok (i, rest) := by
  induction n generalizing bs s with
  | zero => cases h
  | succ n ih =>
    rw [State.fetchInstr] at h
    split at h
    next j rest hd =>
      cases h
      exact ⟨1, by omega, rest, hd⟩
    next =>
      obtain ⟨k, hk, rest, hd⟩ := ih h
      exact ⟨k + 1, by omega, rest, by simpa [State.codeBytes_succ] using hd⟩
    next => cases h
    next => cases h

/-- More bytes than were needed decode to the same instruction (R130). -/
theorem decode_append {bs : List Byte} {i : Instr} {rest : List Byte} (h : decode bs = .ok (i, rest)) (ext : List Byte) :
    decode (bs ++ ext) = .ok (i, rest ++ ext) := by
  rcases (local_decode bs).1 with ht | hx
  · rw [h] at ht
    cases ht
  · rw [hx ext, h]
    rfl

/-- Nothing is fetched where the coming bytes decode to nothing. -/
theorem State.fetchInstr_error_of_decode {s : State} {n : Nat} (h : ∃ e, decode (s.codeBytes n) = .error e) :
    ∃ e, State.fetchInstr n [] s = .error e := by
  cases hf : State.fetchInstr n [] s with
  | error e => exact ⟨e, rfl⟩
  | ok d =>
    obtain ⟨k, hk, rest, hd⟩ := State.decode_of_fetchInstr hf
    rw [List.nil_append] at hd
    obtain ⟨j, rfl⟩ := Nat.exists_eq_add_of_le hk
    obtain ⟨e, he⟩ := h
    rw [State.codeBytes_add, decode_append hd] at he
    cases he

/-- Settles O12: by O3 the bytes read decode to nothing, so nothing is fetched. -/
theorem invalidOpcodeFaults : Obligations.InvalidOpcodeFaults := by
  intro s op m he hh hi hb hinv
  have hf : FetchesAs s s.takeInput.begun := ⟨rfl, rfl, rfl, rfl, rfl, rfl⟩
  have hh' : ¬s.takeInput.halt = true := Bool.eq_false_iff.1 hh
  have hcode : s.codeBytes maxLength = op :: m :: (s.fetched 2).codeBytes 4 := by
    rw [show maxLength = 2 + 4 from rfl, State.codeBytes_add, hb]
    rfl
  have hdec : ∃ e, decode (s.takeInput.begun.codeBytes maxLength) = .error e := by
    rw [hf.codeBytes, hcode]
    exact (invalidEncodings op m _ (State.length_codeBytes 4 _)).2 hinv
  obtain ⟨e, hfetch⟩ := State.fetchInstr_error_of_decode hdec
  have hr : State.runInstr prefixLimit s.takeInput.begun = .fault .invalidOpcode := by
    rw [show prefixLimit = 65535 + 1 from rfl, State.runInstr, hfetch]
  rw [step, State.turn, State.procStep_of_none (s := s.takeInput) he hi, State.instrPhase, if_neg hh', hr]

end Sys2Proof.Machine

/-! SUPPORT. Data transfer (40_data_transfer.md): an instruction that stores to one place, pushes, pops or exchanges, said
once for each shape, and then every instruction of the family. -/

namespace Sys2Proof.Machine

/-! ### An instruction that stores to one place, after the reads of its operands (R201 to R208, R218, R219) -/

theorem State.store8_draws (s : State) (p : Place Reg8) (v : Byte) : (s.store8 p v).draws = s.draws := by
  cases p with
  | reg r => rfl
  | mem a => exact State.write8_draws ..

theorem State.store16_draws (s : State) (p : Place Reg16) (v : Word) : (s.store16 p v).draws = s.draws := by
  cases p with
  | reg r => rfl
  | mem a => exact State.write16_draws ..

section
variable {i : Instr} {s u : State}

/-- A byte store is all that the instruction does, after the read of its source. -/
theorem writesByte_of_store8 {p : Place Reg8} {v : Byte} (he : exec i s = .next (u.store8 p v)) (hb : Beside s u)
    (hf : u.flags = s.flags) (hd : u.draws = s.draws) : WritesByte i s p v :=
  ⟨_, he, (putsByte_store8 u p v).beside hb, (State.store8_flags ..).trans hf, (State.store8_draws ..).trans hd⟩

/-- A word store is all that the instruction does, after the read of its source. -/
theorem writesWord_of_store16 {p : Place Reg16} {v : Word} (he : exec i s = .next (u.store16 p v)) (hb : Beside s u)
    (hf : u.flags = s.flags) (hd : u.draws = s.draws) : WritesWord i s p v :=
  ⟨_, he, (putsWord_store16 u p v).beside hb, (State.store16_flags ..).trans hf, (State.store16_draws ..).trans hd⟩

end

/-- Settles O31: each form is a store to its destination, after the read of its source. -/
theorem movRegisterMemoryImmediate : Obligations.MovRegisterMemoryImmediate := fun s =>
  ⟨fun _ _ => writesByte_of_store8 rfl (.refl s) rfl rfl,
    fun _ _ => writesWord_of_store16 rfl (.refl s) rfl rfl,
    fun _ rm => writesByte_of_store8 rfl (beside_afterLoad8 s (s.place rm)) rfl rfl,
    fun _ rm => writesWord_of_store16 rfl (beside_afterLoad16 s (s.place rm)) rfl rfl,
    fun _ _ => writesByte_of_store8 rfl (.refl s) rfl rfl,
    fun _ _ => writesWord_of_store16 rfl (.refl s) rfl rfl,
    fun _ _ => writesByte_of_store8 rfl (.refl s) rfl rfl,
    fun _ _ => writesWord_of_store16 rfl (.refl s) rfl rfl⟩

/-- Settles O32: a `moffs` operand is a place in memory, and a segment register is stored to an operand, or loaded after
the read of one. -/
theorem movDirectAndSegment : Obligations.MovDirectAndSegment := by
  intro s
  simp only [← State.moffsAddr_eq]
  exact ⟨fun off => writesByte_of_store8 rfl (beside_afterLoad8 s (.mem (s.moffsAddr off))) rfl rfl,
    fun off => writesWord_of_store16 rfl (beside_afterRead16 s (s.moffsAddr off)) rfl rfl,
    fun _ => writesByte_of_store8 rfl (.refl s) rfl rfl,
    fun _ => writesWord_of_store16 rfl (.refl s) rfl rfl,
    fun _ => writesWord_of_store16 rfl (.refl s) rfl rfl,
    fun _ => writesWord_of_store16 rfl (.refl s) rfl rfl,
    fun _ => writesWord_of_store16 rfl (.refl s) rfl rfl,
    fun _ => writesWord_of_store16 rfl (.refl s) rfl rfl,
    fun _ => rfl, fun _ => rfl, fun _ => rfl⟩

/-! ### Pushes (R209 to R211, R232) -/

/-- A push, after the read of the operand. -/
theorem pushesWord_of_push16 {i : Instr} {s u : State} {v : Word} (he : exec i s = .next (u.push16 v))
    (hb : Beside s u) (hf : u.flags = s.flags) (hd : u.draws = s.draws) : PushesWord i s v := by
  have ⟨hu, hg, _⟩ := hb
  have hr : u.regs = s.regs := by rw [hu]
  have hss : u.ss = s.ss := by rw [hu]
  have hm : u.mem = s.mem := by rw [hu]
  have hv : u.cga.vram = s.cga.vram := by rw [hu]
  have hp : u.memMap = s.memMap := by rw [hu]
  obtain ⟨hstored, houtside, hregs⟩ := u.push16_spec v
  have hsys := systemSame_push16 u v
  rw [hr, hss] at hstored houtside hsys
  refine ⟨_, he, hstored.earlier hm hv hp hg, by rw [hregs, hr], ⟨?_, ?_, ?_, ?_⟩, ?_, ?_, ?_,
    houtside.earlier hm hv hp hg (storesOnly_push16 u v).grows, hsys.earlier hb⟩
  · rw [State.push16_cs, hu]
  · rw [State.push16_ds, hu]
  · rw [State.push16_es, hu]
  · rw [State.push16_ss, hu]
  · rw [State.push16_ip, hu]
  · rw [State.push16_flags, hf]
  · rw [State.push16_draws, hd]

/-- `PUSH SP` stores the decremented value (D16). -/
theorem State.pushValue_eq (s : State) (r : Reg16) :
    s.pushValue r = if r = .sp then s.regs.sp - 2 else s.get16 r := by
  cases r <;> rfl

/-- Settles O33: each push is `State.push16`, the ModR/M form's after the read of its operand. -/
theorem DataTransfer.pushes : Obligations.Pushes := fun s =>
  ⟨fun r => pushesWord_of_push16 (s.pushValue_eq r ▸ rfl) (.refl s) rfl rfl,
    fun rm => pushesWord_of_push16 rfl (beside_afterLoad16 s (s.place rm)) rfl rfl,
    pushesWord_of_push16 rfl (.refl s) rfl rfl,
    pushesWord_of_push16 rfl (.refl s) rfl rfl,
    pushesWord_of_push16 rfl (.refl s) rfl rfl,
    pushesWord_of_push16 rfl (.refl s) rfl rfl,
    pushesWord_of_push16 rfl (.refl s) rfl rfl⟩

/-! ### Frames one after the other -/

theorem WordFrame.storesOnly {s t : State} {l : List Reg16} {cells : List Addr} (h : WordFrame s t l cells) :
    StoresOnly s t cells := by
  obtain ⟨-, -, -, hmem, hsame, -, hgrows, -⟩ := h
  exact ⟨by rw [hsame], hgrows, hmem⟩

theorem SegmentsSame.trans {s t u : State} (h : SegmentsSame s t) (h' : SegmentsSame t u) : SegmentsSame s u := by
  obtain ⟨hcs, hds, hes, hss⟩ := h
  obtain ⟨hcs', hds', hes', hss'⟩ := h'
  exact ⟨hcs'.trans hcs, hds'.trans hds, hes'.trans hes, hss'.trans hss⟩

/-- Two frames, one after the other, are one. -/
theorem WordFrame.trans {s t u : State} {l l' : List Reg16} {cells cells' : List Addr} (h : WordFrame s t l cells)
    (h' : WordFrame t u l' cells') : WordFrame s u (l ++ l') (cells ++ cells') := by
  have hmem := (h.storesOnly.trans h'.storesOnly).outside
  obtain ⟨hreg, hseg, hip, -, hsys⟩ := h
  obtain ⟨hreg', hseg', hip', -, hsys'⟩ := h'
  refine ⟨fun r hr => ?_, hseg.trans hseg', hip'.trans hip, hmem, hsys.trans hsys'⟩
  rw [List.mem_append, not_or] at hr
  exact (hreg' r hr.2).trans (hreg r hr.1)

/-- More registers may be listed as written. -/
theorem WordFrame.mono {s t : State} {l l' : List Reg16} {cells : List Addr} (h : WordFrame s t l cells) (hl : l ⊆ l') :
    WordFrame s t l' cells :=
  ⟨fun r hr => h.1 r (mt (@hl r) hr), h.2⟩

/-- A byte register written keeps the frame, with the register among those written. -/
theorem ByteFrame.set8 {s t : State} {l : List Reg8} {cells : List Addr} (h : ByteFrame s t l cells) (r : Reg8)
    (v : Byte) : ByteFrame s (t.set8 r v) (r :: l) cells := by
  obtain ⟨⟨hreg, hwide⟩, hseg, hip, hmem, hsame, hcga, hgrows, hdev⟩ := h
  refine ⟨⟨fun q hq => ?_, ?_⟩, hseg, hip, hmem, congrArg (State.set8 · r v) hsame, hcga, hgrows, hdev⟩
  · rw [List.mem_cons, not_or] at hq
    rw [State.get8_set8, if_neg hq.1, hreg q hq.2]
  · cases r <;> exact hwide

/-! ### Pops (R212 to R214, R233) -/

theorem wordFrame_drop16 (s : State) : WordFrame s s.drop16 [.sp] [] :=
  (beside_afterRead16 s s.stackAddr).putsNothing.set16 .sp (s.regs.sp + 2)

/-- The top of the stack read, and `SP` 2 higher. -/
theorem State.drop16_eq (s : State) :
    s.drop16 = { stackRead s 1 with regs := { s.regs with sp := s.regs.sp + 2 } } := by
  simp [State.drop16, State.stackAddr, stackRead, State.setSp, State.afterRead16_eq]

/-- A word popped into a place: the place holds it, and `SP` is 2 higher unless it is the place. -/
theorem State.pop_spec (s : State) (p : Place Reg16) (v : Word) :
    Holds16 s (s.drop16.store16 p v) p v ∧
      (p ≠ .reg .sp → (s.drop16.store16 p v).regs.sp = s.regs.sp + 2) ∧
      WordFrame s (s.drop16.store16 p v) (.sp :: placeRegs p) (cells16 p) ∧
      (s.drop16.store16 p v).flags = s.flags ∧ (s.drop16.store16 p v).draws = s.draws := by
  obtain ⟨hholds, hframe⟩ := putsWord_store16 s.drop16 p v
  refine ⟨?_, fun hp => hframe.1 .sp ?_, (wordFrame_drop16 s).trans hframe, State.store16_flags .., State.store16_draws ..⟩
  · cases p with
    | reg r => exact hholds
    | mem a => exact WordStored.earlier hholds rfl rfl rfl (wordFrame_drop16 s).storesOnly.grows
  · cases p with
    | reg r => exact fun hr => hp (congrArg _ (List.mem_singleton.1 hr).symm)
    | mem a => exact List.not_mem_nil

/-- Settles O34: `State.pop_spec` for the operand forms; the others load a segment register or the flags after
`State.drop16_eq`. -/
theorem DataTransfer.pops : Obligations.Pops := by
  intro s
  refine ⟨fun r => ?_, fun rm => ?_, ?_, ?_, ?_, ?_⟩
  · obtain ⟨hholds, hsp, hframe, hflags, hdraws⟩ := s.pop_spec (.reg r) s.top16
    exact ⟨_, rfl, hholds, fun hr => hsp fun h => hr (Place.reg.inj h), hframe.mono (List.Perm.swap ..).subset, hflags,
      hdraws⟩
  · obtain ⟨hholds, hsp, hframe, hflags, hdraws⟩ := s.pop_spec (s.place rm) s.top16
    refine ⟨_, rfl, hholds, fun hr => hsp fun h => hr ?_, hframe, hflags, hdraws⟩
    cases rm with
    | reg r => exact congrArg RM.reg (Place.reg.inj h)
    | mem m => cases h
  · exact congrArg (fun t => (.next (t.setS .es s.top16) : Result)) s.drop16_eq
  · exact congrArg (fun t => (.next (t.setS .ss s.top16) : Result)) s.drop16_eq
  · exact congrArg (fun t => (.next (t.setS .ds s.top16) : Result)) s.drop16_eq
  · exact congrArg (fun t => (.next (t.setFlags (flagsOfImage s.top16)) : Result)) s.drop16_eq

/-! ### Exchanges (R215, R216) -/

/-- A byte exchanged with a register, after the read of the operand. -/
theorem exchange8_spec {s u : State} {p : Place Reg8} (r : Reg8) (hb : Beside s u) :
    Holds8 s ((u.store8 p (s.get8 r)).set8 r (s.load8 p)) p (s.get8 r) ∧
      ByteFrame s ((u.store8 p (s.get8 r)).set8 r (s.load8 p)) (r :: placeRegs p) (cells8 p) := by
  obtain ⟨hholds, hframe⟩ := (putsByte_store8 u p (s.get8 r)).beside hb
  refine ⟨?_, hframe.set8 r _⟩
  cases p with
  | mem a => exact hholds
  | reg q =>
    by_cases hq : q = r
    · subst hq; exact (State.get8_set8 ..).trans (if_pos rfl)
    · exact (State.get8_set8 ..).trans ((if_neg hq).trans hholds)

/-- A word exchanged with a register, after the read of the operand. -/
theorem exchange16_spec {s u : State} {p : Place Reg16} (r : Reg16) (hb : Beside s u) :
    Holds16 s ((u.store16 p (s.get16 r)).set16 r (s.load16 p)) p (s.get16 r) ∧
      WordFrame s ((u.store16 p (s.get16 r)).set16 r (s.load16 p)) (r :: placeRegs p) (cells16 p) := by
  obtain ⟨hholds, hframe⟩ := (putsWord_store16 u p (s.get16 r)).beside hb
  refine ⟨?_, (hframe.set16 r _).mono List.perm_append_comm.subset⟩
  cases p with
  | mem a => exact hholds
  | reg q =>
    by_cases hq : q = r
    · subst hq; exact (State.get16_set16 ..).trans (if_pos rfl)
    · exact (State.get16_set16 ..).trans ((if_neg hq).trans hholds)

/-- Settles O35: `exchange8_spec` and `exchange16_spec`; the one-byte forms exchange with `AX`. -/
theorem exchanges : Obligations.Exchanges := by
  intro s
  refine ⟨fun rm r => ?_, fun rm r => ?_, fun ir hir => ?_⟩
  · obtain ⟨hholds, hframe⟩ := exchange8_spec r (beside_afterLoad8 s (s.place rm))
    exact ⟨_, rfl, hholds, (State.get8_set8 ..).trans (if_pos rfl), hframe, State.store8_flags ..⟩
  · obtain ⟨hholds, hframe⟩ := exchange16_spec r (beside_afterLoad16 s (s.place rm))
    exact ⟨_, rfl, hholds, State.get16_set16_same .., hframe, State.store16_flags ..⟩
  · obtain ⟨hax, hframe⟩ := exchange16_spec (p := .reg .ax) ir.2 (.refl s)
    have he : exec ir.1 s = .next (s.xchgAx ir.2) := by
      simp only [List.mem_cons, List.not_mem_nil, or_false] at hir
      rcases hir with rfl | rfl | rfl | rfl | rfl | rfl | rfl <;> rfl
    exact ⟨_, he, hax, State.get16_set16_same .., hframe.mono (List.Perm.swap ..).subset, rfl⟩

/-! ### Address loads (R218 to R221) -/

/-- Settles O36: a load of a far pointer is its two reads and then the two registers. -/
theorem addressLoads : Obligations.AddressLoads := by
  intro s
  rw [← State.xlatAddr_eq]
  have hreg (r : Reg16) (m : Mem) : RegistersOutside s ((s.afterFar m).set16 r (s.farOff m)) [r] :=
    (wordFrame_set16 (s.afterFar m) r (s.farOff m)).1
  exact ⟨fun _ => ⟨rfl, rfl⟩, writesByte_of_store8 rfl (beside_afterLoad8 s (.mem s.xlatAddr)) rfl rfl,
    fun _ _ => writesWord_of_store16 rfl (.refl s) rfl rfl,
    fun r m => ⟨_, rfl, State.get16_set16_same .., rfl, hreg r m, rfl⟩,
    fun r m => ⟨_, rfl, State.get16_set16_same .., rfl, hreg r m, rfl⟩⟩

/-! ### Words written out (R130) -/

/-- Settles O4, by running the decoder on each. -/
theorem decodesWrittenWords : Obligations.DecodesWrittenWords :=
  ⟨rfl, rfl, rfl, rfl, rfl, rfl, rfl, rfl, rfl, rfl, rfl, rfl, rfl, rfl⟩

/-! ### Flag transfers (R230, R231) -/

theorem getLsbD_loByte {v : Word} {k : Nat} (hk : k < 8) : (loByte v).getLsbD k = v.getLsbD k := by
  simp [loByte, hk]

/-- Settles O39: `AH` gets the low byte of the image, whose bits are `getLsbD_image`. -/
theorem flagTransfers : Obligations.FlagTransfers := by
  intro s
  refine ⟨⟨_, rfl, ?_, byteFrame_set8 .., rfl⟩, ?_⟩
  · rw [State.get8_set8, if_pos rfl]
    simp (disch := decide) only [List.range, List.range.loop, List.map, getLsbD_loByte, getLsbD_image]
    rfl
  · simp [exec, execSahf, State.setFlags, Flags.loadLow, State.get8, State.get16, Regs.get, container, isHigh, hiByte]

end Sys2Proof.Machine

/-! SUPPORT. The two-operand ALU operations (41_arithmetic.md R240 to R248, R266; 42_logic_shift_rotate.md R280 to
R284): the ten forms said once, and what each operation answers. -/

namespace Sys2Proof.Machine

/-! ### The ten forms of an ALU operation (R266) -/

/-- What an ALU operation with a byte destination leaves: its flags, and its result in the destination unless it is
`CMP`. -/
def Alu8Done (s : State) (op : AluOp) (p : Place Reg8) (a b : Byte) (t : State) : Prop :=
  t.flags = s.flags.afterAlu op a b s.freeFlags ∧
    (aluWrites op = true → PutsByte s t p (aluResult op a b s.flags.cf)) ∧ (aluWrites op = false → PutsNothing s t)

/-- What an ALU operation with a word destination leaves: its flags, and its result in the destination unless it is
`CMP`. -/
def Alu16Done (s : State) (op : AluOp) (p : Place Reg16) (a b : Word) (t : State) : Prop :=
  t.flags = s.flags.afterAlu op a b s.freeFlags ∧
    (aluWrites op = true → PutsWord s t p (aluResult op a b s.flags.cf)) ∧ (aluWrites op = false → PutsNothing s t)

theorem PutsNothing.beside {s u t : State} (hb : Beside s u) (h : PutsNothing u t) : PutsNothing s t :=
  hb.putsNothing.trans h

/-- A byte ALU operation after the read of its operand. -/
theorem alu8Done_afterLoad8 (s : State) (op : AluOp) (q p : Place Reg8) (a b : Byte) :
    Alu8Done s op p a b ((s.afterLoad8 q).alu8 op p a b) := by
  obtain ⟨hflags, hputs, hnothing⟩ := (s.afterLoad8 q).alu8_spec op p a b
  exact ⟨hflags, fun h => (hputs h).beside (beside_afterLoad8 s q),
    fun h => (hnothing h).beside (beside_afterLoad8 s q)⟩

/-- A word ALU operation after the read of its operand. -/
theorem alu16Done_afterLoad16 (s : State) (op : AluOp) (q p : Place Reg16) (a b : Word) :
    Alu16Done s op p a b ((s.afterLoad16 q).alu16 op p a b) := by
  obtain ⟨hflags, hputs, hnothing⟩ := (s.afterLoad16 q).alu16_spec op p a b
  exact ⟨hflags, fun h => (hputs h).beside (beside_afterLoad16 s q),
    fun h => (hnothing h).beside (beside_afterLoad16 s q)⟩

/-- What follows of every byte ALU operation done holds of the five byte forms. -/
theorem forByteForms_of_done {s : State} {op : AluOp} {Q : Place Reg8 → Byte → Byte → State → Prop}
    (h : ∀ p a b t, Alu8Done s op p a b t → Q p a b t) :
    ForByteForms s op fun i p a b => Completes i s (Q p a b) := by
  refine ⟨fun rm r => ⟨s.aluRm8R8 op rm r, ?_, h _ _ _ _ (alu8Done_afterLoad8 ..)⟩,
    fun r rm => ⟨s.aluR8Rm8 op r rm, ?_, h _ _ _ _ (alu8Done_afterLoad8 ..)⟩,
    fun v => ⟨s.aluAlImm8 op v, ?_, h _ _ _ _ (s.alu8_spec ..)⟩,
    fun rm v => ⟨s.aluRm8Imm8 op rm v, ?_, h _ _ _ _ (alu8Done_afterLoad8 ..)⟩,
    fun rm v => ⟨s.aluRm8Imm8 op rm v, ?_, h _ _ _ _ (alu8Done_afterLoad8 ..)⟩⟩ <;> cases op <;> rfl

/-- What follows of every word ALU operation done holds of the five word forms. -/
theorem forWordForms_of_done {s : State} {op : AluOp} {Q : Place Reg16 → Word → Word → State → Prop}
    (h : ∀ p a b t, Alu16Done s op p a b t → Q p a b t) :
    ForWordForms s op fun i p a b => Completes i s (Q p a b) := by
  refine ⟨fun rm r => ⟨s.aluRm16R16 op rm r, ?_, h _ _ _ _ (alu16Done_afterLoad16 ..)⟩,
    fun r rm => ⟨s.aluR16Rm16 op r rm, ?_, h _ _ _ _ (alu16Done_afterLoad16 ..)⟩,
    fun v => ⟨s.aluAxImm16 op v, ?_, h _ _ _ _ (s.alu16_spec ..)⟩,
    fun rm v => ⟨s.aluRm16Imm16 op rm v, ?_, h _ _ _ _ (alu16Done_afterLoad16 ..)⟩,
    fun rm v => ⟨s.aluRm16Imm16 op rm (v.signExtend 16), ?_, h _ _ _ _ (alu16Done_afterLoad16 ..)⟩⟩ <;>
    cases op <;> rfl

/-! ### What each operation answers (R240, R241, R280) -/

section
variable {w : Nat} (f : Flags) (a b : BitVec w) (u : Word)

/-- `ADD` and `ADC` are the exact sum, without and with the carry (R244, R245). -/
theorem addOutcome_afterAlu (hw : 4 < w) {oc : AluOp × Bool} (h : oc ∈ [(AluOp.add, false), (AluOp.adc, f.cf)]) :
    AddOutcome f (f.afterAlu oc.1 a b u) a b oc.2 (aluResult oc.1 a b f.cf) ∧ aluWrites oc.1 = true := by
  simp only [List.mem_cons, List.not_mem_nil, or_false] at h
  rcases h with rfl | rfl <;> exact ⟨afterAdd_outcome hw .., rfl⟩

/-- `SUB` and `SBB` are the exact difference, without and with the borrow (R246, R247). -/
theorem subOutcome_afterAlu (hw : 4 < w) {oc : AluOp × Bool} (h : oc ∈ [(AluOp.sub, false), (AluOp.sbb, f.cf)]) :
    SubOutcome f (f.afterAlu oc.1 a b u) a b oc.2 (aluResult oc.1 a b f.cf) ∧ aluWrites oc.1 = true := by
  simp only [List.mem_cons, List.not_mem_nil, or_false] at h
  rcases h with rfl | rfl <;> exact ⟨afterSub_outcome hw .., rfl⟩

/-- `AND`, `OR` and `XOR` work bit by bit and write the flags of a logical result (R282 to R284). -/
theorem logicOutcome_afterAlu {op : AluOp × (Bool → Bool → Bool)} (c : Bool)
    (h : op ∈ [(AluOp.and, Bool.and), (AluOp.or, Bool.or), (AluOp.xor, Bool.xor)]) :
    (∀ k, (aluResult op.1 a b c).getLsbD k = op.2 (a.getLsbD k) (b.getLsbD k)) ∧
      LogicOutcome f (f.afterAlu op.1 a b u) (aluResult op.1 a b c) ∧ aluWrites op.1 = true := by
  simp only [List.mem_cons, List.not_mem_nil, or_false] at h
  rcases h with rfl | rfl | rfl
  · exact ⟨fun _ => BitVec.getLsbD_and, afterLogic_outcome .., rfl⟩
  · exact ⟨fun _ => BitVec.getLsbD_or, afterLogic_outcome .., rfl⟩
  · exact ⟨fun _ => BitVec.getLsbD_xor, afterLogic_outcome .., rfl⟩

/-- The difference is 0 exactly when the operands are equal (R248). -/
theorem afterSub_zf : (f.afterSub a b false).zf = decide (a = b) := by
  have hz : a - b = 0#w ↔ a = b := sub_eq_zero
  rw [Bool.eq_iff_iff]
  simp [Flags.afterSub, Flags.setSZP, subResult, hz]

/-- `SF` and `OF` after a subtraction differ exactly when the first operand is less: a difference that wraps has the
wrong sign (R248). -/
theorem afterSub_sf_bne_ofl (hw : 4 < w) :
    ((f.afterSub a b false).sf != (f.afterSub a b false).ofl) = decide (a.toInt < b.toInt) := by
  obtain ⟨-, -, -, hofl, ⟨hsf, -, -⟩, -⟩ := afterSub_outcome hw f a b false
  obtain ⟨hpow, hpos⟩ := pow_half (show 0 < w by omega)
  have hal := BitVec.le_toInt a
  have hau : a.toInt < 2 ^ (w - 1) := BitVec.toInt_lt
  have hbl := BitVec.le_toInt b
  have hbu : b.toInt < 2 ^ (w - 1) := BitVec.toInt_lt
  simp only [Bool.toNat_false, Nat.cast_zero, sub_zero] at hofl
  have hexact : subResult a b false = BitVec.ofInt w (a.toInt - b.toInt) := by simpa using subResult_ofInt a b false
  rw [hsf, hofl, hexact, toInt_wrap (by omega) _ (by omega) (by omega), OutOfRange, hpow, Bool.eq_iff_iff, bne_iff_ne,
    ne_eq, Bool.eq_iff_iff]
  simp only [Bool.or_eq_true, decide_eq_true_eq]
  split_ifs <;> omega

end

/-- Settles O40: the forms by `forByteForms_of_done` and `forWordForms_of_done`, the sums by `addOutcome_afterAlu`. -/
theorem addAndAdc : Obligations.AddAndAdc := by
  refine fun s oc hoc => ⟨forByteForms_of_done fun p a b t h => ?_, forWordForms_of_done fun p a b t h => ?_⟩
  all_goals
    obtain ⟨hflags, hputs, -⟩ := h
    obtain ⟨hsum, hwrites⟩ := addOutcome_afterAlu s.flags a b s.freeFlags (by decide) hoc
    exact ⟨_, hflags ▸ hsum, hputs hwrites⟩

/-- Settles O41: the forms by `forByteForms_of_done` and `forWordForms_of_done`, the differences by
`subOutcome_afterAlu`. -/
theorem subAndSbb : Obligations.SubAndSbb := by
  refine fun s oc hoc => ⟨forByteForms_of_done fun p a b t h => ?_, forWordForms_of_done fun p a b t h => ?_⟩
  all_goals
    obtain ⟨hflags, hputs, -⟩ := h
    obtain ⟨hdifference, hwrites⟩ := subOutcome_afterAlu s.flags a b s.freeFlags (by decide) hoc
    exact ⟨_, hflags ▸ hdifference, hputs hwrites⟩

/-- Settles O42: the flags are those of the difference, which `afterSub_zf` and `afterSub_sf_bne_ofl` read as
comparisons. -/
protected theorem compare : Obligations.Compare := by
  refine fun s => ⟨forByteForms_of_done fun p a b t h => ?_, forWordForms_of_done fun p a b t h => ?_⟩
  all_goals
    obtain ⟨hflags, -, hnothing⟩ := h
    have hsub : t.flags = s.flags.afterSub a b false := hflags
    rw [hsub]
    exact ⟨⟨_, afterSub_outcome (by decide) s.flags a b false⟩, hnothing rfl, afterSub_zf .., rfl,
      afterSub_sf_bne_ofl s.flags a b (by decide)⟩

/-- Settles O43: the forms by `forByteForms_of_done` and `forWordForms_of_done`, the results by
`logicOutcome_afterAlu`. -/
theorem logicalOperations : Obligations.LogicalOperations := by
  refine fun s op hop => ⟨forByteForms_of_done fun p a b t h => ?_, forWordForms_of_done fun p a b t h => ?_⟩
  all_goals
    obtain ⟨hflags, hputs, -⟩ := h
    obtain ⟨hbits, hlogic, hwrites⟩ := logicOutcome_afterAlu s.flags a b s.freeFlags s.flags.cf hop
    exact ⟨_, fun k _ => hbits k, hflags ▸ hlogic, hputs hwrites⟩

end Sys2Proof.Machine

/-! SUPPORT. Increments, decrements and negation (41_arithmetic.md R249 to R253). -/

namespace Sys2Proof.Machine

/-! ### An instruction that stores its result after its flags -/

section
variable {i : Instr} {s u : State} {f : Flags} {P : State → Prop}

theorem completes_of_store8 {p : Place Reg8} {v : Byte} (he : exec i s = .next ((u.setFlags f).store8 p v))
    (hb : Beside s u) (h : ∀ t, t.flags = f → PutsByte s t p v → P t) : Completes i s P :=
  ⟨_, he, h _ (State.store8_flags ..) ((putsByte_store8 _ p v).beside (hb.trans (beside_setFlags u f)))⟩

theorem completes_of_store16 {p : Place Reg16} {v : Word} (he : exec i s = .next ((u.setFlags f).store16 p v))
    (hb : Beside s u) (h : ∀ t, t.flags = f → PutsWord s t p v → P t) : Completes i s P :=
  ⟨_, he, h _ (State.store16_flags ..) ((putsWord_store16 _ p v).beside (hb.trans (beside_setFlags u f)))⟩

end

/-! ### What `INC`, `DEC` and `NEG` answer -/

section
variable {w : Nat} (hw : 4 < w) {f g : Flags} {a : BitVec w}
include hw

/-- `INC` writes the flags of the sum but `CF`, which it keeps (R249). -/
theorem addOutcome_afterInc (hg : g = f.afterInc a) :
    (∃ c, AddOutcome f { g with cf := c } a 1 false (addResult a 1 false)) ∧ g.cf = f.cf := by
  subst hg
  exact ⟨⟨(f.afterAdd a 1 false).cf, afterAdd_outcome hw f a 1 false⟩, rfl⟩

/-- `DEC` writes the flags of the difference but `CF`, which it keeps (R251). -/
theorem subOutcome_afterDec (hg : g = f.afterDec a) :
    (∃ c, SubOutcome f { g with cf := c } a 1 false (subResult a 1 false)) ∧ g.cf = f.cf := by
  subst hg
  exact ⟨⟨(f.afterSub a 1 false).cf, afterSub_outcome hw f a 1 false⟩, rfl⟩

/-- `NEG` writes the flags of the difference from 0: it carries unless its operand is 0, and overflows only on the least
operand (R253). -/
theorem subOutcome_neg (hg : g = f.afterSub 0 a false) :
    SubOutcome f g 0 a false (subResult 0 a false) ∧ g.cf = decide (a ≠ 0) ∧ g.ofl = decide (a = BitVec.intMin w) := by
  subst hg
  have hsub := afterSub_outcome hw f 0 a false
  refine ⟨hsub, ?_, ?_⟩
  · have hz : 0 < a.toNat ↔ a ≠ 0 := by
      rw [Nat.pos_iff_ne_zero, ne_eq, ne_eq, ← BitVec.toNat_inj, BitVec.ofNat_eq_ofNat, BitVec.toNat_zero]
    exact decide_eq_decide.2 (by simpa using hz)
  · obtain ⟨-, -, -, hofl, -⟩ := hsub
    obtain ⟨hpow, hpos⟩ := pow_half (show 0 < w by omega)
    have hmin : (BitVec.intMin w).toInt = -2 ^ (w - 1) := BitVec.toInt_intMin_of_pos (by omega)
    have hal := BitVec.le_toInt a
    have hau : a.toInt < 2 ^ (w - 1) := BitVec.toInt_lt
    have hleast : a = BitVec.intMin w ↔ a.toInt = -2 ^ (w - 1) := by rw [← BitVec.toInt_inj, hmin]
    rw [hofl, OutOfRange, Bool.eq_iff_iff, decide_eq_true_iff, hleast]
    simp only [BitVec.ofNat_eq_ofNat, BitVec.toInt_zero, Bool.toNat_false, Nat.cast_zero, Bool.or_eq_true,
      decide_eq_true_eq]
    omega

end

/-- Settles O45: each form is a store after its flags, which are `addOutcome_afterInc`, `subOutcome_afterDec` and
`subOutcome_neg`. -/
theorem incDecNeg : Obligations.IncDecNeg := by
  intro s
  have hb8 (rm : RM Reg8) : Beside s (s.afterRm8 rm) := beside_afterLoad8 ..
  have hb16 (p : Place Reg16) : Beside s (s.afterLoad16 p) := beside_afterLoad16 ..
  refine ⟨fun rm => completes_of_store8 rfl (hb8 rm) fun t hf hp => ?_,
    fun rm => completes_of_store16 rfl (hb16 _) fun t hf hp => ?_,
    fun r => completes_of_store16 rfl (hb16 _) fun t hf hp => ?_,
    fun rm => completes_of_store8 rfl (hb8 rm) fun t hf hp => ?_,
    fun rm => completes_of_store16 rfl (hb16 _) fun t hf hp => ?_,
    fun r => completes_of_store16 rfl (hb16 _) fun t hf hp => ?_,
    fun rm => completes_of_store8 rfl (hb8 rm) fun t hf hp => ?_,
    fun rm => completes_of_store16 rfl (hb16 _) fun t hf hp => ?_⟩
  iterate 3
    obtain ⟨⟨c, hadd⟩, hcf⟩ := addOutcome_afterInc (by decide) hf
    exact ⟨_, c, hadd, hcf, hp⟩
  iterate 3
    obtain ⟨⟨c, hsub⟩, hcf⟩ := subOutcome_afterDec (by decide) hf
    exact ⟨_, c, hsub, hcf, hp⟩
  iterate 2
    obtain ⟨hsub, hcf, hofl⟩ := subOutcome_neg (by decide) hf
    exact ⟨_, hsub, hcf, hofl, hp⟩

end Sys2Proof.Machine

/-! SUPPORT. Multiplication and the divisions that complete (41_arithmetic.md R242, R254 to R257). -/

namespace Sys2Proof.Machine

/-! ### Products over integers (R254, R255) -/

section
variable {w v : Nat} (hv : v = w + w) (a b : BitVec w)
include hv

/-- The product of two unsigned operands fits twice their width. -/
theorem toNat_setWidth_mul : (a.setWidth v * b.setWidth v).toNat = a.toNat * b.toNat := by
  have ha : (a.setWidth v).toNat = a.toNat := BitVec.toNat_setWidth_of_le (by omega)
  have hb : (b.setWidth v).toNat = b.toNat := BitVec.toNat_setWidth_of_le (by omega)
  rw [BitVec.toNat_mul_of_lt, ha, hb]
  rw [ha, hb, hv, Nat.pow_add]
  exact Nat.mul_lt_mul'' a.isLt b.isLt

/-- The product of two signed operands fits twice their width. -/
theorem toInt_signExtend_mul (hw : 0 < w) : (a.signExtend v * b.signExtend v).toInt = a.toInt * b.toInt := by
  have hlow := @BitVec.le_toInt_mul_toInt w a b
  have hhigh := @BitVec.toInt_mul_toInt_le w a b
  obtain ⟨n, rfl⟩ : ∃ n, w = n + 1 := ⟨w - 1, by omega⟩
  have hpow : (2 : Int) ^ v = 4 * 2 ^ ((n + 1) * 2 - 2) := by
    rw [hv, show n + 1 + (n + 1) = (n + 1) * 2 - 2 + 2 by omega, pow_add]; ring
  have hpos : (0 : Int) < 2 ^ ((n + 1) * 2 - 2) := by positivity
  rw [BitVec.toInt_mul, BitVec.toInt_signExtend_of_le (by omega), BitVec.toInt_signExtend_of_le (by omega)]
  apply Int.bmod_eq_of_le <;> push_cast <;> rw [hpow] <;> omega

end

/-- Sign extension gives a number back from its low half exactly when it is in the signed range of that half. -/
theorem bne_signExtend_low {w v : Nat} (hw : 0 < w) (hv : w ≤ v) (x : BitVec v) :
    (x != (x.extractLsb' 0 w).signExtend v) = OutOfRange w x.toInt := by
  obtain ⟨hpow, hpos⟩ := pow_half hw
  have hlow : ((x.extractLsb' 0 w).signExtend v).toInt = x.toInt.bmod (2 ^ w) := by
    rw [BitVec.toInt_signExtend_of_le hv, ← BitVec.setWidth_eq_extractLsb' hv, BitVec.toInt_setWidth,
      BitVec.toInt_eq_toNat_bmod x, Int.bmod_bmod_of_dvd (Nat.pow_dvd_pow 2 hv)]
  have hfits : x.toInt.bmod (2 ^ w) = x.toInt ↔ -2 ^ (w - 1) ≤ x.toInt ∧ x.toInt < 2 ^ (w - 1) := by
    rw [Int.bmod_eq_iff (Nat.two_pow_pos w)]
    push_cast
    rw [hpow, sub_self]
    simp only [dvd_zero, and_true]
    omega
  rw [Bool.eq_iff_iff, bne_iff_ne, ne_eq, eq_comm, ← BitVec.toInt_inj, hlow, hfits, OutOfRange]
  simp only [Bool.or_eq_true, decide_eq_true_eq]
  omega

/-! ### What the products leave -/

/-- A word product in `AX`, and nothing else but flags, after the read of the factor. -/
theorem wordFrame_product16 {s u : State} (hb : Beside s u) (p : Word) (high : Bool) :
    WordFrame s (u.product16 p high) [.ax] [] := by
  have hflags := (hb.trans (beside_setFlags u (u.flags.afterMul high u.freeFlags))).trans (beside_drew _ true)
  exact hflags.putsNothing.set16 .ax p

/-- A double word product in `DX:AX`, and nothing else but flags, after the read of the factor. -/
theorem State.product32_spec {s u : State} (hb : Beside s u) (p : BitVec 32) (high : Bool) :
    (u.product32 p high).dividend32 = p ∧ WordFrame s (u.product32 p high) [.ax, .dx] [] := by
  have hflags := (hb.trans (beside_setFlags u (u.flags.afterMul high u.freeFlags))).trans (beside_drew _ true)
  refine ⟨BitVec.extractLsb'_append_extractLsb', ?_⟩
  exact ((hflags.putsNothing.set16 .dx (p.extractLsb' 16 16)).set16 .ax (p.extractLsb' 0 16)).mono
    (List.Perm.swap ..).subset

/-- Settles O46: the product by `toNat_setWidth_mul` and `toInt_signExtend_mul`, `CF` of `IMUL` by
`bne_signExtend_low`. -/
theorem multiplication : Obligations.Multiplication := by
  intro s
  have hb8 (rm : RM Reg8) : Beside s (s.afterRm8 rm) := beside_afterLoad8 ..
  have hb16 (rm : RM Reg16) : Beside s (s.afterRm16 rm) := beside_afterLoad16 ..
  refine ⟨fun rm => ?_, fun rm => ?_, fun rm => ?_, fun rm => ?_⟩
  · exact ⟨_, rfl, toNat_setWidth_mul rfl .., (decide_not ..).symm, rfl, ⟨rfl, rfl, rfl⟩,
      wordFrame_product16 (hb8 rm) ..⟩
  · obtain ⟨hproduct, hframe⟩ := State.product32_spec (hb16 rm) (mul16 s.regs.ax (s.rm16 rm))
      ((mul16 s.regs.ax (s.rm16 rm)).extractLsb' 16 16 != 0)
    refine ⟨_, rfl, ?_, (decide_not ..).symm, rfl, ⟨rfl, rfl, rfl⟩, hframe⟩
    rw [← State.dividend32_toNat, hproduct]
    exact toNat_setWidth_mul rfl ..
  · have hproduct : (imul8 (s.get8 .al) (s.rm8 rm)).toInt = (s.get8 .al).toInt * (s.rm8 rm).toInt :=
      toInt_signExtend_mul rfl _ _ (by decide)
    exact ⟨_, rfl, hproduct, hproduct ▸ bne_signExtend_low (by decide) (by decide) _, rfl, ⟨rfl, rfl, rfl⟩,
      wordFrame_product16 (hb8 rm) ..⟩
  · obtain ⟨hput, hframe⟩ := State.product32_spec (hb16 rm) (imul16 s.regs.ax (s.rm16 rm))
      (imul16 s.regs.ax (s.rm16 rm) != ((imul16 s.regs.ax (s.rm16 rm)).extractLsb' 0 16).signExtend 32)
    have hproduct : (imul16 s.regs.ax (s.rm16 rm)).toInt = s.regs.ax.toInt * (s.rm16 rm).toInt :=
      toInt_signExtend_mul rfl _ _ (by decide)
    exact ⟨_, rfl, (congrArg BitVec.toInt hput).trans hproduct,
      hproduct ▸ bne_signExtend_low (by decide) (by decide) _, rfl, ⟨rfl, rfl, rfl⟩, hframe⟩

/-! ### Quotients and remainders over integers (R242) -/

/-- Quotient and remainder of an unsigned division whose quotient fits. -/
theorem unsigned_division {w : Nat} {n : Nat} {d : BitVec w} (hd : d.toNat ≠ 0) (hq : n / d.toNat < 2 ^ w) :
    (BitVec.ofNat w (n / d.toNat)).toNat * d.toNat + (BitVec.ofNat w (n % d.toNat)).toNat = n ∧
      (BitVec.ofNat w (n % d.toNat)).toNat < d.toNat := by
  have hr : n % d.toNat < d.toNat := Nat.mod_lt _ (Nat.pos_of_ne_zero hd)
  rw [BitVec.toNat_ofNat, BitVec.toNat_ofNat, Nat.mod_eq_of_lt hq, Nat.mod_eq_of_lt (hr.trans d.isLt)]
  exact ⟨Nat.div_add_mod' .., hr⟩

/-- Quotient and remainder of a signed division whose quotient fits. -/
theorem signed_division {w : Nat} (hw : 0 < w) {n : Int} {d : BitVec w} (hd : d.toInt ≠ 0)
    (hq : OutOfRange w (n.tdiv d.toInt) = false) :
    (BitVec.ofInt w (n.tdiv d.toInt)).toInt = n.tdiv d.toInt ∧
      (BitVec.ofInt w (n.tdiv d.toInt)).toInt * d.toInt + (BitVec.ofInt w (n.tmod d.toInt)).toInt = n := by
  simp only [OutOfRange, Bool.or_eq_false_iff, decide_eq_false_iff_not, not_lt, not_le] at hq
  have hr : (n.tmod d.toInt).natAbs < d.toInt.natAbs := by
    rw [Int.natAbs_tmod]
    exact Nat.mod_lt _ (Int.natAbs_pos.2 hd)
  have hlow := BitVec.le_toInt d
  have hhigh : d.toInt < 2 ^ (w - 1) := BitVec.toInt_lt
  rw [BitVec.toInt_ofInt_eq_self hw hq.1 hq.2, BitVec.toInt_ofInt_eq_self hw (by omega) (by omega)]
  exact ⟨rfl, Int.tdiv_mul_add_tmod ..⟩

/-- A signed quotient fits when it is within range and not the least one, of which it is left open (R257, D18). -/
theorem not_misfits {w : Nat} {q : Int} (hlow : -2 ^ (w - 1) < q) (hhigh : q < 2 ^ (w - 1)) :
    ¬Misfits w q = true ∧ OutOfRange w q = false := by
  have hrange : OutOfRange w q = false := by simp [OutOfRange, hlow.le, hhigh]
  exact ⟨by simp [Misfits, hrange, hlow.ne'], hrange⟩

section
variable {i : Instr} {s u x e : State} {c : Prop} [Decidable c] {P : State → Prop}

/-- A byte division that raises a divide error when `c` holds, and `c` does not hold. -/
theorem completes_of_quotient8 {q r : Byte} (he : exec i s = .next x) (hx : x = if c then e else u.quotient8 q r)
    (hc : ¬c) (hb : Beside s u) (hf : u.flags = s.flags)
    (h : ∀ t, t.get8 .al = q → t.get8 .ah = r → ControlFlagsSame s.flags t.flags → WordFrame s t [.ax] [] → P t) :
    Completes i s P := by
  rw [if_neg hc] at hx
  subst hx
  obtain ⟨hal, hah, hframe⟩ := State.quotient8_spec hb q r
  exact ⟨_, he, h _ hal hah (hf ▸ ⟨rfl, rfl, rfl⟩) hframe⟩

/-- A word division that raises a divide error when `c` holds, and `c` does not hold. -/
theorem completes_of_quotient16 {q r : Word} (he : exec i s = .next x) (hx : x = if c then e else u.quotient16 q r)
    (hc : ¬c) (hb : Beside s u) (hf : u.flags = s.flags)
    (h : ∀ t, t.regs.ax = q → t.regs.dx = r → ControlFlagsSame s.flags t.flags → WordFrame s t [.ax, .dx] [] → P t) :
    Completes i s P := by
  rw [if_neg hc] at hx
  subst hx
  obtain ⟨hax, hdx, hframe⟩ := State.quotient16_spec hb q r
  exact ⟨_, he, h _ hax hdx (hf ▸ ⟨rfl, rfl, rfl⟩) hframe⟩

end

/-- Settles O47: `State.div8_eq` and the three like it say that the division completes, `unsigned_division` and
`signed_division` what its quotient and remainder are. -/
theorem divisionCompletes : Obligations.DivisionCompletes := by
  intro s
  have hb8 (rm : RM Reg8) : Beside s (s.afterRm8 rm) := beside_afterLoad8 ..
  have hb16 (rm : RM Reg16) : Beside s (s.afterRm16 rm) := beside_afterLoad16 ..
  refine ⟨fun rm hd hq => ?_, fun rm hd hq => ?_, fun rm hd hlow hhigh => ?_, fun rm hd hlow hhigh => ?_⟩
  · obtain ⟨hdiv, hrem⟩ := unsigned_division hd (Nat.lt_succ_of_le hq)
    refine completes_of_quotient8 rfl (State.div8_eq ..) (not_or.2 ⟨hd, not_lt.2 hq⟩) (hb8 rm) rfl ?_
    intro t hal hah hflags hframe
    exact ⟨hal ▸ hah ▸ hdiv, hah ▸ hrem, hflags, hframe⟩
  · obtain ⟨hdiv, hrem⟩ := unsigned_division hd (Nat.lt_succ_of_le hq)
    refine completes_of_quotient16 rfl (State.div16_eq ..) (not_or.2 ⟨hd, not_lt.2 hq⟩) (hb16 rm) rfl ?_
    intro t hax hdx hflags hframe
    exact ⟨hax ▸ hdx ▸ hdiv, hdx ▸ hrem, hflags, hframe⟩
  · obtain ⟨hfits, hrange⟩ := not_misfits (w := 8) hlow (Int.lt_of_le_sub_one hhigh)
    obtain ⟨hquot, hdiv⟩ := signed_division (by decide) hd hrange
    refine completes_of_quotient8 rfl (State.idiv8_eq ..) (not_or.2 ⟨hd, hfits⟩) (hb8 rm) rfl ?_
    intro t hal hah hflags hframe
    exact ⟨hal ▸ hquot, hal ▸ hah ▸ hdiv, hflags, hframe⟩
  · obtain ⟨hfits, hrange⟩ := not_misfits (w := 16) hlow (Int.lt_of_le_sub_one hhigh)
    obtain ⟨hquot, hdiv⟩ := signed_division (by decide) hd hrange
    refine completes_of_quotient16 rfl (State.idiv16_eq ..) (not_or.2 ⟨hd, hfits⟩) (hb16 rm) rfl ?_
    intro t hax hdx hflags hframe
    exact ⟨hax ▸ hquot, hax ▸ hdx ▸ hdiv, hflags, hframe⟩

end Sys2Proof.Machine

/-! SUPPORT. The decimal and ASCII adjusts, and the sign extensions of `AX` (41_arithmetic.md R258 to R265). -/

namespace Sys2Proof.Machine

/-! ### What the adjusts look at (R258 to R261) -/

theorem State.nibbleAdjust_eq (s : State) :
    s.nibbleAdjust = (decide (9 < (s.get8 .al).toNat % 16) || s.flags.af) := by
  simp [State.nibbleAdjust]

/-- `AL` after its low correction by `d`, over integers modulo 2^8. -/
theorem State.alAdjusted_toNat (s : State) (d : Byte) :
    (s.alAdjusted d).toNat = ((s.get8 .al).toNat + if s.nibbleAdjust then d.toNat else 0) % 256 := by
  have hal := (s.get8 .al).isLt
  rw [State.alAdjusted]
  split
  · exact BitVec.toNat_add ..
  · omega

theorem toNat_and_low_nibble (x : Byte) : (x &&& 0x0F).toNat = x.toNat % 16 :=
  (BitVec.toNat_and ..).trans (Nat.and_two_pow_sub_one_eq_mod x.toNat 4)

/-! ### What the adjusts leave -/

/-- A word register and the flags written, with a draw, and nothing else. -/
theorem putsWord_set16_flags (s : State) (r : Reg16) (v : Word) (f : Flags) :
    PutsWord s (((s.set16 r v).setFlags f).drew true) (.reg r) v :=
  (putsWord_store16 _ (.reg r) v).beside ((beside_setFlags s f).trans (beside_drew _ true))

/-- A byte register and the flags written, with a draw, and nothing else. -/
theorem putsByte_set8_flags (s : State) (r : Reg8) (v : Byte) (f : Flags) :
    PutsByte s (((s.set8 r v).setFlags f).drew true) (.reg r) v :=
  (putsByte_store8 _ (.reg r) v).beside ((beside_setFlags s f).trans (beside_drew _ true))

/-- `AAA` and `AAS` with the corrections `d` of `AL` and `e` of `AH` (R258, R259). -/
theorem State.asciiAdjust_spec (s : State) (d e : Byte) :
    ((s.asciiAdjust d e).get8 .al).toNat = ((s.get8 .al).toNat + if s.nibbleAdjust then d.toNat else 0) % 16 ∧
      ((s.asciiAdjust d e).get8 .ah).toNat = ((s.get8 .ah).toNat + if s.nibbleAdjust then e.toNat else 0) % 256 ∧
      WordFrame s (s.asciiAdjust d e) [.ax] [] := by
  have hal : (s.asciiAdjust d e).get8 .al = s.alAdjusted d &&& 0x0F := loByte_mkWord ..
  have hah : (s.asciiAdjust d e).get8 .ah = if s.nibbleAdjust then s.get8 .ah + e else s.get8 .ah := hiByte_mkWord ..
  have hold := (s.get8 .ah).isLt
  refine ⟨?_, ?_, (putsWord_set16_flags ..).2⟩
  · rw [hal, toNat_and_low_nibble, State.alAdjusted_toNat]
    omega
  · rw [hah]
    split
    · exact BitVec.toNat_add ..
    · omega

theorem resultFlags_afterDecimal (f : Flags) (al : Byte) (af cf : Bool) (u : Word) :
    ResultFlags (f.afterDecimal al af cf u) al :=
  resultFlags_setSZP f al

/-- `DAA` and `DAS` with the corrections `d` and `e` of `AL` and the new carry (R260, R261). -/
theorem State.decimalAdjust_spec (s : State) (d e : Byte) (cf : Bool) :
    ((s.decimalAdjust d e cf).get8 .al).toNat =
        ((s.get8 .al).toNat + (if s.nibbleAdjust then d.toNat else 0) + if s.highAdjust then e.toNat else 0) % 256 ∧
      ResultFlags (s.decimalAdjust d e cf).flags ((s.decimalAdjust d e cf).get8 .al) ∧
      ByteFrame s (s.decimalAdjust d e cf) [.al] [] := by
  obtain ⟨hal, hframe⟩ := putsByte_set8_flags s .al (if s.highAdjust then s.alAdjusted d + e else s.alAdjusted d)
    (s.flags.afterDecimal (if s.highAdjust then s.alAdjusted d + e else s.alAdjusted d) s.nibbleAdjust cf s.freeFlags)
  have hal : (s.decimalAdjust d e cf).get8 .al = if s.highAdjust then s.alAdjusted d + e else s.alAdjusted d := hal
  refine ⟨?_, ?_, hframe⟩
  · rw [hal]
    split
    · rw [BitVec.toNat_add, State.alAdjusted_toNat, Nat.mod_add_mod]
    · exact State.alAdjusted_toNat ..
  · rw [hal]
    exact resultFlags_afterDecimal ..

/-- `AAM` and `AAD` (R262, R263). -/
theorem State.asciiMul_spec (s : State) (al ah : Byte) :
    (s.asciiMul al ah).get8 .al = al ∧ (s.asciiMul al ah).get8 .ah = ah ∧
      ResultFlags (s.asciiMul al ah).flags al ∧ ControlFlagsSame s.flags (s.asciiMul al ah).flags ∧
      WordFrame s (s.asciiMul al ah) [.ax] [] :=
  ⟨loByte_mkWord .., hiByte_mkWord .., resultFlags_setSZP s.flags al, ⟨rfl, rfl, rfl⟩, (putsWord_set16_flags ..).2⟩

/-- A base other than 0 is no divide error (R262). -/
theorem State.aam_of_ne_zero (s : State) {b : Byte} (hb : b.toNat ≠ 0) :
    s.aam b = s.asciiMul (s.get8 .al % b) (s.get8 .al / b) :=
  if_neg fun h => hb (congrArg BitVec.toNat h)

/-- A word of the sign of `a` before `a` is `a` as a signed number (R265). -/
theorem toInt_signWord_append (a : Word) : ((if a.msb then 0xFFFF else 0 : Word) ++ a).toInt = a.toInt := by
  have hminus1 : (0xFFFF : Word).toInt = -1 := rfl
  have hzero : (0 : Word).toInt = 0 := rfl
  rw [BitVec.toInt_append, if_neg (by decide), BitVec.toInt_eq_msb_cond a]
  split
  · rw [hminus1]
    omega
  · rw [hzero]
    omega

/-- Settles O49: the adjusts by `State.asciiAdjust_spec` and `State.decimalAdjust_spec`, with -6, -1 and -60h as the
bytes they are modulo 2^8. -/
theorem decimalAdjusts : Obligations.DecimalAdjusts := by
  intro s
  dsimp only
  rw [← State.nibbleAdjust_eq]
  have hminus6 : (-6 : Byte).toNat = 250 := rfl
  have hminus1 : (-1 : Byte).toNat = 255 := rfl
  have hminus60 : (-0x60 : Byte).toNat = 160 := rfl
  obtain ⟨haaaAl, haaaAh, haaa⟩ := s.asciiAdjust_spec 6 1
  obtain ⟨haasAl, haasAh, haas⟩ := s.asciiAdjust_spec (-6) (-1)
  obtain ⟨hdaaAl, hdaaFlags, hdaa⟩ := s.decimalAdjust_spec 6 0x60 s.highAdjust
  obtain ⟨hdasAl, hdasFlags, hdas⟩ := s.decimalAdjust_spec (-6) (-0x60) s.dasCarry
  refine ⟨⟨_, rfl, haaaAl.trans ?_, haaaAh.trans ?_, rfl, rfl, ⟨rfl, rfl, rfl⟩, haaa⟩,
    ⟨_, rfl, haasAl.trans ?_, haasAh.trans ?_, rfl, rfl, ⟨rfl, rfl, rfl⟩, haas⟩,
    ⟨_, rfl, hdaaAl, rfl, rfl, hdaaFlags, ⟨rfl, rfl, rfl⟩, hdaa⟩,
    ⟨_, rfl, hdasAl.trans ?_, rfl, rfl, hdasFlags, ⟨rfl, rfl, rfl⟩, hdas⟩⟩
  · split <;> rfl
  · split <;> rfl
  · rw [hminus6]
    split <;> omega
  · rw [hminus1]
    split <;> omega
  · rw [hminus6, hminus60, State.highAdjust]
    split_ifs <;> omega

/-- Settles O50: `AAM` and `AAD` by `State.asciiMul_spec`, and the sign extensions keep the signed value. -/
theorem aamAadCbwCwd : Obligations.AamAadCbwCwd := by
  intro s
  refine ⟨fun b hb => ?_, fun b => ?_, ?_, ?_⟩
  · obtain ⟨hal, hah, hflags, hcontrol, hframe⟩ := s.asciiMul_spec (s.get8 .al % b) (s.get8 .al / b)
    refine ⟨_, congrArg Host.Outcome.next (s.aam_of_ne_zero hb), ?_, ?_, hal.symm ▸ hflags, hcontrol, hframe⟩
    · rw [hah, BitVec.toNat_udiv]
    · rw [hal, BitVec.toNat_umod]
  · obtain ⟨hal, hah, hflags, hcontrol, hframe⟩ := s.asciiMul_spec (s.get8 .al + s.get8 .ah * b) 0
    refine ⟨_, rfl, ?_, hah, hal.symm ▸ hflags, hcontrol, hframe⟩
    rw [hal, BitVec.toNat_add, BitVec.toNat_mul, Nat.add_mod_mod]
  · exact ⟨_, rfl, BitVec.toInt_signExtend_of_le (by decide), rfl, wordFrame_set16 ..⟩
  · exact ⟨_, rfl, toInt_signWord_append s.regs.ax, rfl, wordFrame_set16 ..⟩

end Sys2Proof.Machine

/-! SUPPORT. `NOT`, `TEST`, the shifts and the rotates (42_logic_shift_rotate.md R281, R285 to R294): the single-bit step
iterated is the closed form, said once for every width and count, and what each shape of instruction leaves. -/

namespace Sys2Proof.Machine

/-! ### `NOT` and `TEST` (R281, R285) -/

theorem not_eq_ofNat_sub {w : Nat} (a : BitVec w) : ~~~a = BitVec.ofNat w (2 ^ w - 1 - a.toNat) := by
  rw [← BitVec.toNat_not, BitVec.ofNat_toNat, BitVec.setWidth_eq]

/-- `TEST` writes the flags of the bitwise and, after the read of its operand, and nothing else. -/
theorem completes_of_test {w : Nat} {i : Instr} {s u : State} {a b : BitVec w} (he : exec i s = .next (u.test a b))
    (hb : Beside s u) (hf : u.flags = s.flags) :
    Completes i s fun t => LogicOutcome s.flags t.flags (a &&& b) ∧ PutsNothing s t :=
  ⟨_, he, hf ▸ afterLogic_outcome u.flags (a &&& b) u.freeFlags,
    ((hb.trans (beside_setFlags u _)).trans (beside_drew _ true)).putsNothing⟩

/-- Settles O44: `NOT` is a store of `not_eq_ofNat_sub`, and the forms of `TEST` are `completes_of_test`. -/
theorem notAndTest : Obligations.NotAndTest := by
  intro s
  have hb8 (rm : RM Reg8) : Beside s (s.afterRm8 rm) := beside_afterLoad8 ..
  have hb16 (rm : RM Reg16) : Beside s (s.afterRm16 rm) := beside_afterLoad16 ..
  exact ⟨fun rm => not_eq_ofNat_sub (s.rm8 rm) ▸ writesByte_of_store8 rfl (hb8 rm) rfl rfl,
    fun rm => not_eq_ofNat_sub (s.rm16 rm) ▸ writesWord_of_store16 rfl (hb16 rm) rfl rfl,
    fun _ => completes_of_test rfl (.refl s) rfl, fun _ => completes_of_test rfl (.refl s) rfl,
    fun rm _ => completes_of_test rfl (hb8 rm) rfl, fun rm _ => completes_of_test rfl (hb16 rm) rfl,
    fun rm _ => completes_of_test rfl (hb8 rm) rfl, fun rm _ => completes_of_test rfl (hb16 rm) rfl⟩

/-! ### Rotations add up -/

section
variable {w : Nat}

/-- A bit of a rotation to the left, counted from the top, is the bit that many places below, cyclically. -/
theorem getMsbD_rotateLeft_mod (x : BitVec w) (r : Nat) {i : Nat} (hi : i < w) :
    (x.rotateLeft r).getMsbD i = x.getMsbD ((r + i) % w) := by
  rw [BitVec.getMsbD_rotateLeft, decide_eq_true hi, Bool.true_and]

/-- A bit of a rotation to the right is the bit that many places above, cyclically. -/
theorem getLsbD_rotateRight_mod (x : BitVec w) (r : Nat) {i : Nat} (hi : i < w) :
    (x.rotateRight r).getLsbD i = x.getLsbD ((r + i) % w) := by
  have hr : r % w < w := Nat.mod_lt r (by omega)
  rw [BitVec.getLsbD_rotateRight, ← Nat.mod_add_mod]
  generalize r % w = k at hr
  by_cases h : i < w - k
  · have hmod : (k + i) % w = k + i := Nat.mod_eq_of_lt (by omega)
    simp [h, hmod]
  · have hmod : (k + i) % w = i - (w - k) := by
      rw [Nat.mod_eq_sub_mod (by omega), Nat.mod_eq_of_lt (by omega)]
      omega
    simp [h, hi, hmod]

theorem rotateLeft_zero (x : BitVec w) : x.rotateLeft 0 = x := by
  refine BitVec.eq_of_getMsbD_eq fun i hi => ?_
  rw [getMsbD_rotateLeft_mod x 0 hi, Nat.zero_add, Nat.mod_eq_of_lt hi]

theorem rotateRight_zero (x : BitVec w) : x.rotateRight 0 = x := by
  refine BitVec.eq_of_getLsbD_eq fun i hi => ?_
  rw [getLsbD_rotateRight_mod x 0 hi, Nat.zero_add, Nat.mod_eq_of_lt hi]

theorem rotateLeft_rotateLeft (x : BitVec w) (m n : Nat) : (x.rotateLeft m).rotateLeft n = x.rotateLeft (m + n) := by
  refine BitVec.eq_of_getMsbD_eq fun i hi => ?_
  rw [getMsbD_rotateLeft_mod _ n hi, getMsbD_rotateLeft_mod x m (Nat.mod_lt _ (by omega)),
    getMsbD_rotateLeft_mod x _ hi, Nat.add_mod_mod, Nat.add_assoc]

theorem rotateRight_rotateRight (x : BitVec w) (m n : Nat) :
    (x.rotateRight m).rotateRight n = x.rotateRight (m + n) := by
  refine BitVec.eq_of_getLsbD_eq fun i hi => ?_
  rw [getLsbD_rotateRight_mod _ n hi, getLsbD_rotateRight_mod x m (Nat.mod_lt _ (by omega)),
    getLsbD_rotateRight_mod x _ hi, Nat.add_mod_mod, Nat.add_assoc]

/-! ### A rotation by one place is the single-bit step (R290 to R293) -/

section
variable (hw : 1 < w) (x : BitVec w)
include hw

/-- The bit that leaves at the top comes in at the bottom (R290). -/
theorem rotateLeft_one : x.rotateLeft 1 = (x <<< 1) ||| (BitVec.ofBool x.msb).setWidth w := by
  have htop : x >>> (w - 1) = (BitVec.ofBool x.msb).setWidth w := by
    refine BitVec.eq_of_getLsbD_eq fun i hi => ?_
    rcases i with _ | i
    · simp [BitVec.msb_eq_getLsbD_last, hi]
    · simp [show w ≤ w - 1 + (i + 1) by omega]
  rw [BitVec.rotateLeft_def, Nat.mod_eq_of_lt hw, htop]

/-- The bit that leaves at the bottom comes in at the top (R291). -/
theorem rotateRight_one :
    x.rotateRight 1 = (x >>> 1) ||| ((BitVec.ofBool (x.getLsbD 0)).setWidth w <<< (w - 1)) := by
  have hbottom : x <<< (w - 1) = (BitVec.ofBool (x.getLsbD 0)).setWidth w <<< (w - 1) := by
    refine BitVec.eq_of_getLsbD_eq fun i hi => ?_
    rcases Nat.lt_or_ge i (w - 1) with h | h
    · simp [h]
    · obtain rfl : i = w - 1 := by omega
      simp
  rw [BitVec.rotateRight_def, Nat.mod_eq_of_lt hw, hbottom]

theorem getLsbD_rotateLeft_one : (x.rotateLeft 1).getLsbD 0 = x.msb := by
  simp [rotateLeft_one hw, show 0 < w by omega]

theorem msb_rotateRight_one : (x.rotateRight 1).msb = x.getLsbD 0 := by
  rw [BitVec.msb_eq_getLsbD_last, getLsbD_rotateRight_mod x 1 (by omega), Nat.add_sub_cancel' (by omega), Nat.mod_self]

end

/-- `RCL` rotates the operand with `CF` above it as one word (R292). -/
theorem shiftStep_rcl (hw : 1 < w) (x : BitVec (1 + w)) :
    shiftStep .rcl (x.setWidth w, x.msb) = ((x.rotateLeft 1).setWidth w, (x.rotateLeft 1).msb) := by
  refine Prod.ext (BitVec.eq_of_getLsbD_eq fun i hi => ?_) ?_
  · rw [rotateLeft_one (by omega)]
    rcases i with _ | i
    · simp [shiftStep]
    · simp [shiftStep, hi]
  · have hmod : 1 % (1 + w) = 1 := Nat.mod_eq_of_lt (by omega)
    simp [shiftStep, BitVec.msb_rotateLeft, BitVec.msb_setWidth, BitVec.getMsbD, hmod]

/-- `RCR` rotates the operand with `CF` above it as one word (R293). -/
theorem shiftStep_rcr (hw : 1 < w) (x : BitVec (1 + w)) :
    shiftStep .rcr (x.setWidth w, x.msb) = ((x.rotateRight 1).setWidth w, (x.rotateRight 1).msb) := by
  refine Prod.ext (BitVec.eq_of_getLsbD_eq fun i hi => ?_) ?_
  · have hbit : (x.rotateRight 1).getLsbD i = x.getLsbD (1 + i) := by
      rw [getLsbD_rotateRight_mod x 1 (by omega), Nat.mod_eq_of_lt (by omega)]
    rw [BitVec.getLsbD_setWidth, hbit]
    rcases Nat.lt_or_ge (i + 1) w with h | h
    · simp [shiftStep, hi, show i < w - 1 by omega, show 1 + i < w by omega]
    · obtain rfl : w = i + 1 := by omega
      simp [shiftStep, BitVec.msb_eq_getLsbD_last, Nat.add_comm 1]
  · rw [msb_rotateRight_one (by omega)]
    simp [shiftStep, show 0 < w by omega]

/-! ### The closed forms (R294) -/

/-- A single-bit step from the closed form of n is the closed form of n + 1. -/
theorem shiftStep_closedShift (hw : 1 < w) (op : ShiftOp) (v : BitVec w) (cf : Bool) (n : Nat) :
    shiftStep op (closedShift op v cf n) = closedShift op v cf (n + 1) := by
  cases op with
  | shl =>
    refine Prod.ext (BitVec.shiftLeft_add v n 1).symm ?_
    simp [shiftStep, closedShift, BitVec.msb_shiftLeft, BitVec.getMsbD, Nat.sub_sub, Nat.add_comm]
  | shr =>
    have hlast : v.getLsbD n = (decide (n + 1 ≤ w) && v.getLsbD n) := by
      rcases Nat.lt_or_ge n w with h | h
      · rw [decide_eq_true (Nat.succ_le_of_lt h), Bool.true_and]
      · rw [BitVec.getLsbD_of_ge v n h, Bool.and_false]
    exact Prod.ext (BitVec.shiftRight_add v n 1).symm ((BitVec.getLsbD_ushiftRight v n 0).trans hlast)
  | sar =>
    have hlast : (if n < w then v.getLsbD n else v.msb) = if n < w - 1 then v.getLsbD n else v.msb := by
      rcases eq_or_ne n (w - 1) with rfl | h
      · rw [BitVec.msb_eq_getLsbD_last, ite_self, ite_self]
      · simp only [show n < w ↔ n < w - 1 by omega]
    refine Prod.ext BitVec.sshiftRight_add.symm ?_
    simpa [shiftStep, closedShift, BitVec.getLsbD_sshiftRight, show w ≠ 0 by omega] using hlast
  | rol =>
    simp only [shiftStep, closedShift, ← rotateLeft_one hw, ← rotateLeft_rotateLeft v n 1, getLsbD_rotateLeft_one hw]
  | ror =>
    simp only [shiftStep, closedShift, ← rotateRight_one hw, ← rotateRight_rotateRight v n 1, msb_rotateRight_one hw]
  | rcl =>
    simp only [closedShift]
    rw [shiftStep_rcl hw, rotateLeft_rotateLeft]
  | rcr =>
    simp only [closedShift]
    rw [shiftStep_rcr hw, rotateRight_rotateRight]

/-- The closed form of 0 is the operand, and `CF` where the step looks at it. -/
theorem shiftStep_closedShift_zero (op : ShiftOp) (v : BitVec w) (cf : Bool) :
    shiftStep op (closedShift op v cf 0) = shiftStep op (v, cf) := by
  have hcarry : (BitVec.ofBool cf ++ v).msb = cf := by rw [BitVec.msb_append, if_neg (by decide), BitVec.msb_ofBool]
  cases op <;>
    simp only [shiftStep, closedShift, rotateLeft_zero, rotateRight_zero, BitVec.shiftLeft_zero,
      BitVec.ushiftRight_zero, BitVec.sshiftRight_zero, BitVec.setWidth_append_eq_right, hcarry]

theorem shiftIter_closedShift (hw : 1 < w) (op : ShiftOp) (v : BitVec w) (cf : Bool) (m n : Nat) :
    shiftIter op n (closedShift op v cf m) = closedShift op v cf (m + n) := by
  induction n generalizing m with
  | zero => rfl
  | succ n ih => rw [shiftIter, shiftStep_closedShift hw, ih, Nat.add_right_comm, Nat.add_assoc]

/-- The step applied n times is the closed form of n (R294). -/
theorem shiftIter_eq_closedShift (hw : 1 < w) (op : ShiftOp) (v : BitVec w) (cf : Bool) {n : Nat} (hn : n ≠ 0) :
    shiftIter op n (v, cf) = closedShift op v cf n := by
  obtain ⟨m, rfl⟩ := Nat.exists_eq_succ_of_ne_zero hn
  calc shiftIter op (m + 1) (v, cf) = shiftIter op (m + 1) (closedShift op v cf 0) := by
        rw [shiftIter, shiftIter, shiftStep_closedShift_zero]
    _ = closedShift op v cf (m + 1) := by rw [shiftIter_closedShift hw, Nat.zero_add]

theorem shiftIter_fst (hw : 1 < w) (op : ShiftOp) (v : BitVec w) (cf : Bool) (n : Nat) :
    (shiftIter op n (v, cf)).1 = shifted op v cf n := by
  unfold shifted
  split
  case isTrue hn => rw [hn, shiftIter]
  case isFalse hn => rw [shiftIter_eq_closedShift hw op v cf hn]

theorem shiftOverflow_eq (op : ShiftOp) (v v' : BitVec w) (c : Bool) :
    shiftOverflow op v v' c = closedOverflow op v v' c := by
  cases op with
  | shr => exact BitVec.msb_eq_decide v
  | _ => rfl

/-! ### The flags of a shift and of a rotate (R286) -/

section
variable (hw : 1 < w) (f : Flags) {op : ShiftOp} (v : BitVec w) (n : Nat) (u : Word)
include hw

theorem shiftFlags_afterShift (hop : isShift op = true) : ShiftFlags f (f.afterShift op v n u) op v n := by
  unfold ShiftFlags
  split
  case isTrue hn => exact if_pos hn
  case isFalse hn =>
    simp only [Flags.afterShift, if_neg hn, if_pos hop, shiftIter_eq_closedShift hw op v f.cf hn]
    refine ⟨rfl, resultFlags_setSZP f _, ?_, rfl, rfl, rfl⟩
    rintro rfl
    exact shiftOverflow_eq ..

theorem rotateFlags_afterShift (hop : isShift op = false) : RotateFlags f (f.afterShift op v n u) op v n := by
  unfold RotateFlags
  split
  case isTrue hn => exact if_pos hn
  case isFalse hn =>
    have hflags : f.afterShift op v n u =
        { f with
          cf := (closedShift op v f.cf n).2
          ofl := if n = 1 then shiftOverflow op v (closedShift op v f.cf n).1 (closedShift op v f.cf n).2
            else u.getLsbD 11 } := by
      simp only [Flags.afterShift, if_neg hn, hop, Bool.false_eq_true, if_false,
        shiftIter_eq_closedShift hw op v f.cf hn]
    rw [hflags]
    refine ⟨rfl, rfl, rfl, rfl, rfl, ?_, rfl, rfl, rfl⟩
    rintro rfl
    exact shiftOverflow_eq ..

end

end

/-! ### The forms by 1 and by `CL` (R286) -/

section
variable {s : State} {op : ShiftOp} {i : Instr × Nat} {P : State → Prop}

/-- What follows of the flags and the operand of a byte shift or rotate holds of its two forms. -/
theorem completes_of_shift8 {rm : RM Reg8}
    (hi : i ∈ [(shiftRm8One op rm, 1), (shiftRm8Cl op rm, (s.get8 .cl).toNat)])
    (h : ∀ t, t.flags = s.flags.afterShift op (s.rm8 rm) i.2 s.freeFlags →
      PutsByte s t (s.place rm) (shifted op (s.rm8 rm) s.flags.cf i.2) → P t) : Completes i.1 s P := by
  have he : exec i.1 s = .next (s.shift8 op rm i.2) := by
    simp only [List.mem_cons, List.not_mem_nil, or_false] at hi
    rcases hi with rfl | rfl <;> cases op <;> rfl
  obtain ⟨hflags, hputs⟩ := s.shift8_spec op rm i.2
  rw [shiftIter_fst (by decide)] at hputs
  exact ⟨_, he, h _ hflags hputs⟩

/-- What follows of the flags and the operand of a word shift or rotate holds of its two forms. -/
theorem completes_of_shift16 {rm : RM Reg16}
    (hi : i ∈ [(shiftRm16One op rm, 1), (shiftRm16Cl op rm, (s.get8 .cl).toNat)])
    (h : ∀ t, t.flags = s.flags.afterShift op (s.rm16 rm) i.2 s.freeFlags →
      PutsWord s t (s.place rm) (shifted op (s.rm16 rm) s.flags.cf i.2) → P t) : Completes i.1 s P := by
  have he : exec i.1 s = .next (s.shift16 op rm i.2) := by
    simp only [List.mem_cons, List.not_mem_nil, or_false] at hi
    rcases hi with rfl | rfl <;> cases op <;> rfl
  obtain ⟨hflags, hputs⟩ := s.shift16_spec op rm i.2
  rw [shiftIter_fst (by decide)] at hputs
  exact ⟨_, he, h _ hflags hputs⟩

end

/-- Settles O51: the operand by `shiftIter_eq_closedShift`, within `completes_of_shift8` and `completes_of_shift16`, and
the flags by `shiftFlags_afterShift`. -/
theorem shifts : Obligations.Shifts := by
  intro s op hop
  have hshift : isShift op = true := by
    revert op
    decide
  exact ⟨fun _ _ hi => completes_of_shift8 hi fun _ hf hp =>
      ⟨hf ▸ shiftFlags_afterShift (by decide) s.flags _ _ _ hshift, hp⟩,
    fun _ _ hi => completes_of_shift16 hi fun _ hf hp =>
      ⟨hf ▸ shiftFlags_afterShift (by decide) s.flags _ _ _ hshift, hp⟩⟩

/-- Settles O52: the operand by `shiftIter_eq_closedShift`, within `completes_of_shift8` and `completes_of_shift16`, and
the flags by `rotateFlags_afterShift`. -/
theorem rotates : Obligations.Rotates := by
  intro s op hop
  have hrotate : isShift op = false := by
    revert op
    decide
  exact ⟨fun _ _ hi => completes_of_shift8 hi fun _ hf hp =>
      ⟨hf ▸ rotateFlags_afterShift (by decide) s.flags _ _ _ hrotate, hp⟩,
    fun _ _ hi => completes_of_shift16 hi fun _ hf hp =>
      ⟨hf ▸ rotateFlags_afterShift (by decide) s.flags _ _ _ hrotate, hp⟩⟩

end Sys2Proof.Machine

/-! SUPPORT. String instructions (43_string.md): what one iteration does and its frame, and the repeat around it. -/

namespace Sys2Proof.Machine

/-! ### The indices (R310) -/

theorem State.add_delta {s u : State} (hdf : u.flags.df = s.flags.df) (x n : Word) : x + u.delta n = moved s x n := by
  unfold State.delta moved
  rw [hdf]
  split
  · exact (BitVec.sub_eq_add_neg x n).symm
  · rfl

section
variable {s u : State} {l : List Reg16} {cells : List Addr}

/-- `SI` moved by one element, after what has not written it. -/
theorem WordFrame.stepSi (h : WordFrame s u l cells) (n : Word) (hdf : u.flags.df = s.flags.df) (hl : .si ∉ l) :
    (u.stepSi n).regs.si = moved s s.regs.si n ∧ WordFrame s (u.stepSi n) (l ++ [.si]) cells := by
  have hsi : u.regs.si = s.regs.si := h.1 .si hl
  exact ⟨hsi ▸ State.add_delta hdf u.regs.si n, h.set16 .si _⟩

/-- `DI` moved by one element, after what has not written it. -/
theorem WordFrame.stepDi (h : WordFrame s u l cells) (n : Word) (hdf : u.flags.df = s.flags.df) (hl : .di ∉ l) :
    (u.stepDi n).regs.di = moved s s.regs.di n ∧ WordFrame s (u.stepDi n) (l ++ [.di]) cells := by
  have hdi : u.regs.di = s.regs.di := h.1 .di hl
  exact ⟨hdi ▸ State.add_delta hdf u.regs.di n, h.set16 .di _⟩

/-- Both indices moved by one element, after what has written no register. -/
theorem WordFrame.stepBoth (h : WordFrame s u [] cells) (n : Word) (hdf : u.flags.df = s.flags.df) :
    ((u.stepSi n).stepDi n).regs.si = moved s s.regs.si n ∧ ((u.stepSi n).stepDi n).regs.di = moved s s.regs.di n ∧
      WordFrame s ((u.stepSi n).stepDi n) [.si, .di] cells := by
  obtain ⟨hsi, hframe⟩ := h.stepSi n hdf List.not_mem_nil
  obtain ⟨hdi, hframe⟩ := hframe.stepDi n hdf (by decide)
  exact ⟨hsi, hdi, hframe⟩

end

/-! ### Elements read, stored and compared (R313 to R315) -/

theorem beside_afterRead8 (s : State) (a : Addr) : Beside s (s.afterRead8 a) := beside_afterLoad8 s (.mem a)

theorem wordFrame_write8 (s : State) (a : Addr) (v : Byte) : WordFrame s (s.write8 a v) [] [a] :=
  ⟨fun q _ => State.get16_congr (State.write8_regs ..) q, (byteFrame_write8 s a v).2⟩

/-- A byte stored stays so when a register is written. -/
theorem ByteStored.set16 {s t : State} {a : Addr} {v : Byte} (h : ByteStored s t a v) (r : Reg16) (x : Word) :
    ByteStored s (t.set16 r x) a v := h

/-- A word stored stays so when a register is written. -/
theorem WordStored.set16 {s t : State} {a : Addr} {v : Word} (h : WordStored s t a v) (r : Reg16) (x : Word) :
    WordStored s (t.set16 r x) a v := h

section
variable {s u : State} (hb : Beside s u)
include hb

/-- A byte stored after what is beside it. -/
theorem Beside.write8 (a : Addr) (v : Byte) :
    ByteStored s (u.write8 a v) a v ∧ WordFrame s (u.write8 a v) [] [a] := by
  have ⟨hu, hgrows, _⟩ := hb
  exact ⟨(u.byteStored_write8 a v).earlier (by rw [hu]) (by rw [hu]) (by rw [hu]) hgrows,
    hb.putsNothing.trans (wordFrame_write8 u a v)⟩

/-- A word stored after what is beside it. -/
theorem Beside.write16 (a : Addr) (v : Word) :
    WordStored s (u.write16 a v) a v ∧ WordFrame s (u.write16 a v) [] [a, a + 1] :=
  (putsWord_store16 u (.mem a) v).beside hb

/-- A comparison writes nothing but flags. -/
theorem Beside.compare {w : Nat} (a b : BitVec w) : WordFrame s (u.compare a b) [] [] :=
  (hb.trans (beside_setFlags u _)).putsNothing

end

/-! ### One iteration, and the repeat around it (R311, R312, R319) -/

/-- The single iteration of a string instruction; the other instructions have none (R313 to R317). -/
def oneIteration : Instr → State → State
  | .movsb => State.movsb1
  | .movsw => State.movsw1
  | .cmpsb => State.cmpsb1
  | .cmpsw => State.cmpsw1
  | .scasb => State.scasb1
  | .scasw => State.scasw1
  | .lodsb => State.lodsb1
  | .lodsw => State.lodsw1
  | .stosb => State.stosb1
  | .stosw => State.stosw1
  | _ => id

/-- Whether a repeat goes on after an iteration that leaves the state `t`, as far as `CX` does not say (R311, R312). -/
def repeatGoesOn (i : Instr) (r : Rep) (t : State) : Bool := !comparesElements i || repeatHolds r t.flags.zf

theorem repeatGoesOn_iff (i : Instr) (r : Rep) (t : State) :
    repeatGoesOn i r t = true ↔ (comparesElements i = true → (t.flags.zf = true ↔ r = .rep)) := by
  unfold repeatGoesOn repeatHolds
  cases comparesElements i <;> cases r <;> simp

section
variable {i : Instr} {s : State} (hi : isString i = true)
include hi

/-- A string instruction is its iteration, under the repeat that compares or the one that does not. -/
theorem exec_string :
    exec i s =
      .next (if comparesElements i then s.repeatedCompare (oneIteration i) else s.repeated (oneIteration i)) := by
  cases i with
  | movsb | movsw | cmpsb | cmpsw | scasb | scasw | lodsb | lodsw | stosb | stosw => rfl
  | _ => cases hi

theorem exec_string_of_none (hrep : s.pend.rep = none) : exec i s = .next (oneIteration i s) := by
  rw [exec_string hi, State.repeatedCompare, State.repeated, hrep, ite_self]

theorem exec_string_of_some {r : Rep} (hrep : s.pend.rep = some r) :
    exec i s =
      .next
        (if s.regs.cx = 0 then s
        else (oneIteration i s).afterIteration (repeatGoesOn i r (oneIteration i s))) := by
  rw [exec_string hi, State.repeatedCompare, State.repeated, hrep]
  unfold repeatGoesOn
  cases comparesElements i <;> rfl

/-- Without a repeat prefix the instruction does what its iteration does. -/
theorem completes_of_oneIteration (hrep : s.pend.rep = none) {P : State → Prop} (h : P (oneIteration i s)) :
    Completes i s P :=
  ⟨_, exec_string_of_none hi hrep, h⟩

end

/-- An iteration neither counts nor jumps, and leaves the prefixes. -/
theorem oneIteration_keeps (i : Instr) (s : State) :
    (oneIteration i s).regs.cx = s.regs.cx ∧ (oneIteration i s).ip = s.ip ∧ (oneIteration i s).pend = s.pend := by
  cases i with
  | movsb | movsw | stosb | stosw =>
    simp [oneIteration, State.movsb1, State.movsw1, State.stosb1, State.stosw1, State.stepSi, State.stepDi,
      Regs.put, State.afterRead8, State.afterRead16]
  | _ => exact ⟨rfl, rfl, rfl⟩

/-- An iteration does not look at the repeat prefix. -/
theorem oneIteration_rep (i : Instr) (s : State) (r : Option Rep) :
    oneIteration i { s with pend := { s.pend with rep := r } } =
      { oneIteration i s with pend := { s.pend with rep := r } } := by
  cases i with
  | movsb | movsw | stosb | stosw =>
    simp only [oneIteration, State.movsb1, State.movsw1, State.stosb1, State.stosw1, State.write16, State.write8_update]
    rfl
  | _ => rfl

/-- After an iteration `CX` is 1 less, and `IP` back at the first prefix byte when the repeat goes on (R312). -/
theorem State.afterIteration_eq (u : State) (more : Bool) :
    u.afterIteration more =
      { u with
        regs := { u.regs with cx := u.regs.cx - 1 }
        ip := if u.regs.cx ≠ 1 ∧ more = true then u.pend.start else u.ip } := by
  have hmore : (u.regs.cx - 1 != 0 && more) = true ↔ u.regs.cx ≠ 1 ∧ more = true := by
    rw [Bool.and_eq_true, bne_iff_ne, ne_eq, sub_eq_zero]
  have hcount : (u.set16 .cx (u.regs.cx - 1)).regs.cx = u.regs.cx - 1 := rfl
  rw [State.afterIteration, hcount]
  simp only [hmore]
  split <;> rfl

/-- Settles O53: each iteration is a store, a comparison or a load of `AX`, after the reads of its elements, and then
the steps of its indices. -/
theorem stringIterations : Obligations.StringIterations := by
  intro s hrep
  rw [← State.srcAddr_eq]
  have run {i : Instr} (hi : isString i = true) {P : State → Prop} : P (oneIteration i s) → Completes i s P :=
    completes_of_oneIteration hi hrep
  have hread8 := beside_afterRead8 s
  have hread16 := beside_afterRead16 s
  refine ⟨run rfl ?movsb, run rfl ?movsw, run rfl ?cmpsb, run rfl ?cmpsw, run rfl ?scasb, run rfl ?scasw,
    run rfl ?lodsb, run rfl ?lodsw, run rfl ?stosb, run rfl ?stosw⟩
  case movsb =>
    obtain ⟨hstored, hframe⟩ := (hread8 s.srcAddr).write8 (destinationAt s) (s.read8 s.srcAddr)
    have hflags : s.movsb1.flags = s.flags := State.write8_flags ..
    obtain ⟨hsi, hdi, hframe⟩ := hframe.stepBoth 1 (congrArg Flags.df hflags)
    exact ⟨(hstored.set16 ..).set16 .., hsi, hdi, hflags, hframe⟩
  case movsw =>
    obtain ⟨hstored, hframe⟩ := (hread16 s.srcAddr).write16 (destinationAt s) (s.read16 s.srcAddr)
    have hflags : s.movsw1.flags = s.flags := State.write16_flags ..
    obtain ⟨hsi, hdi, hframe⟩ := hframe.stepBoth 2 (congrArg Flags.df hflags)
    exact ⟨(hstored.set16 ..).set16 .., hsi, hdi, hflags, hframe⟩
  case cmpsb =>
    have hread := (hread8 s.srcAddr).trans (beside_afterRead8 _ (destinationAt s))
    exact ⟨⟨_, afterSub_outcome (by decide) ..⟩, (hread.compare ..).stepBoth 1 rfl⟩
  case cmpsw =>
    have hread := (hread16 s.srcAddr).trans (beside_afterRead16 _ (destinationAt s))
    exact ⟨⟨_, afterSub_outcome (by decide) ..⟩, (hread.compare ..).stepBoth 2 rfl⟩
  case scasb =>
    have hcompare := (hread8 (destinationAt s)).compare (s.get8 .al) (s.read8 (destinationAt s))
    exact ⟨⟨_, afterSub_outcome (by decide) ..⟩, hcompare.stepDi 1 rfl List.not_mem_nil⟩
  case scasw =>
    have hcompare := (hread16 (destinationAt s)).compare s.regs.ax (s.read16 (destinationAt s))
    exact ⟨⟨_, afterSub_outcome (by decide) ..⟩, hcompare.stepDi 2 rfl List.not_mem_nil⟩
  case lodsb =>
    have hload := (hread8 s.srcAddr).putsNothing.set16 .ax (mkWord (s.read8 s.srcAddr) (hiByte s.regs.ax))
    obtain ⟨hsi, hframe⟩ := hload.stepSi 1 rfl (by decide)
    exact ⟨loByte_mkWord .., hiByte_mkWord .., hsi, rfl, hframe⟩
  case lodsw =>
    have hload := (hread16 s.srcAddr).putsNothing.set16 .ax (s.read16 s.srcAddr)
    obtain ⟨hsi, hframe⟩ := hload.stepSi 2 rfl (by decide)
    exact ⟨rfl, hsi, rfl, hframe⟩
  case stosb =>
    obtain ⟨hstored, hframe⟩ := (Beside.refl s).write8 (destinationAt s) (s.get8 .al)
    have hflags : s.stosb1.flags = s.flags := State.write8_flags ..
    obtain ⟨hdi, hframe⟩ := hframe.stepDi 1 (congrArg Flags.df hflags) List.not_mem_nil
    exact ⟨hstored.set16 .., hdi, hflags, hframe⟩
  case stosw =>
    obtain ⟨hstored, hframe⟩ := (Beside.refl s).write16 (destinationAt s) s.regs.ax
    have hflags : s.stosw1.flags = s.flags := State.write16_flags ..
    obtain ⟨hdi, hframe⟩ := hframe.stepDi 2 (congrArg Flags.df hflags) List.not_mem_nil
    exact ⟨hstored.set16 .., hdi, hflags, hframe⟩

/-- Settles O54: the unrepeated instruction is the iteration, which does not look at the repeat prefix
(`oneIteration_rep`); under the prefix `State.afterIteration_eq` counts it, and `repeatGoesOn_iff` says when the repeat
goes on. -/
theorem repeatedStrings : Obligations.RepeatedStrings := by
  intro s r i hrep hi
  have honce := (exec_string_of_none (s := { s with pend := { s.pend with rep := none } }) hi rfl).trans
    (congrArg _ (oneIteration_rep i s none))
  obtain ⟨hcount, hip, hpend⟩ := oneIteration_keeps i s
  refine ⟨fun hcx => ?_, fun hcx => ⟨_, honce, ?_⟩⟩
  · rw [exec_string_of_some hi hrep, if_pos hcx]
  · rw [exec_string_of_some hi hrep, if_neg hcx, State.afterIteration_eq, hcount, hip, hpend]
    simp only [repeatGoesOn_iff]

end Sys2Proof.Machine

/-! SUPPORT. Control transfer (44_control_transfer.md): jumps on a condition, what the calls push and the returns pop, and
the software interrupts. -/

namespace Sys2Proof.Machine

/-! ### Software interrupts and hooks (R364 to R366, R411) -/

/-- What no single write by the host changes, its writes in order do not change (R12). -/
theorem State.hostWrites_same {α : Type} {f : State → α} (hf : ∀ s w, f (State.hostWrite s w) = f s) (s : State)
    (ws : List HostWrite) : f (s.hostWrites ws) = f s := by
  induction ws generalizing s with
  | nil => rfl
  | cons w ws ih => exact (ih (s.hostWrite w)).trans (hf s w)

theorem State.hostWrite_pic (s : State) (w : HostWrite) : (s.hostWrite w).pic = s.pic := by
  cases w <;> simp [State.hostWrite]

theorem State.hostWrite_draws (s : State) (w : HostWrite) : (s.hostWrite w).draws = s.draws := by
  cases w <;> simp [State.hostWrite]

theorem State.softInterrupt_of_hook {s : State} {n : Byte} (hn : n ∈ s.hooks) : s.softInterrupt n = s.runHook n :=
  if_pos (List.contains_iff_mem.2 hn)

theorem State.softInterrupt_of_no_hook {s : State} {n : Byte} (hn : n ∉ s.hooks) :
    s.softInterrupt n = s.interrupt n :=
  if_neg (mt List.contains_iff_mem.1 hn)

/-- Settles O29: a hooked `INT n` is `State.runHook`, every other of these instructions that acts is an interrupt entry. -/
theorem softwareInterrupts : Obligations.SoftwareInterrupts := by
  intro s
  refine ⟨fun n hn => ?_, fun n hn => ⟨s.runHook n, ?_, ?_⟩, entersAfter_of_beside rfl (.refl s) rfl, fun ho => ?_,
    fun ho => ?_⟩
  · exact entersAfter_of_beside (congrArg (.next · : State → Result) (State.softInterrupt_of_no_hook hn)) (.refl s) rfl
  · exact congrArg (.next · : State → Result) (State.softInterrupt_of_hook hn)
  · obtain ⟨hmem, hio, hhooks, -⟩ := (kept_hostSame s).runHook n (HostSame.refl s)
    exact ⟨rfl, rfl, rfl, rfl, State.hostWrites_same State.hostWrite_pic s _, hmem, hio, hhooks,
      (quiet_runHook s n).1, State.hostWrites_same State.hostWrite_draws s _⟩
  · exact entersAfter_of_beside (congrArg (.next · : State → Result) (if_pos ho)) (.refl s) rfl
  · exact congrArg (.next · : State → Result) (if_neg (Bool.eq_false_iff.1 ho))

/-! ### Jumps and loops (R146, R331 to R335, R360 to R363) -/

/-- A displacement added to a word, over integers modulo 2^16 (R146). -/
theorem toNat_add_toInt (a d : Word) : ((a + d).toNat : Int) = ((a.toNat : Int) + d.toInt) % 65536 := by
  have ha := a.isLt
  rw [← BitVec.ofInt_toInt (x := d), BitVec.toNat_add, BitVec.toNat_ofInt, BitVec.ofInt_toInt]
  omega

/-- A jump that is taken exactly on its condition (R146). -/
theorem jumpsWhen_of_jumpBy {i : Instr} {s : State} {c : Bool} {d : Word}
    (he : exec i s = .next (if c then s.jumpBy d else s)) : JumpsWhen i s c d.toInt := by
  refine ⟨_, he, ?_⟩
  cases c with
  | true => exact ⟨rfl, toNat_add_toInt s.ip d⟩
  | false => exact ⟨rfl, rfl⟩

/-- A jump by a sign-extended byte, on a condition the model writes as `c` (R146). -/
theorem jumpsWhen_of_jumpIf {i : Instr} {s : State} {c c' : Bool} {rel : Byte} (he : exec i s = .next (s.jumpIf c rel))
    (hc : c = c') : JumpsWhen i s c' rel.toInt := by
  subst hc
  rw [← BitVec.toInt_signExtend_of_le (show 8 ≤ 16 by decide)]
  exact jumpsWhen_of_jumpBy he

/-- A loop instruction leaves `CX` one lower, and jumps when that is not 0 and its condition holds (R360 to R362). -/
theorem State.loopBy_spec (s : State) (c : Bool) (rel : Byte) :
    s.loopBy c rel = { s with ip := (s.loopBy c rel).ip, regs := { s.regs with cx := s.regs.cx - 1 } } ∧
      ((s.loopBy c rel).ip.toNat : Int) =
        if s.regs.cx ≠ 1 ∧ c = true then ((s.ip.toNat : Int) + rel.toInt) % 65536 else s.ip.toNat := by
  have hcond : (s.regs.cx - 1 != 0 && c) = decide (s.regs.cx ≠ 1 ∧ c = true) := by
    have hcx : s.regs.cx - 1 = 0 ↔ s.regs.cx = 1 := sub_eq_zero
    rw [bne, beq_eq_decide, decide_eq_decide.2 hcx, Bool.decide_and, decide_not, Bool.decide_eq_true]
  rw [State.loopBy, hcond]
  by_cases hj : s.regs.cx ≠ 1 ∧ c = true
  · rw [decide_eq_true hj, if_pos hj]
    exact ⟨rfl, toNat_add_signExtend s.ip rel⟩
  · rw [decide_eq_false hj, if_neg hj]
    exact ⟨rfl, rfl⟩

/-- Settles O55: the relative jumps by `jumpsWhen_of_jumpBy`, the loops by `State.loopBy_spec`. -/
theorem jumpsAndLoops : Obligations.JumpsAndLoops := by
  intro s
  refine ⟨fun rel => jumpsWhen_of_jumpIf rfl rfl, fun rel => jumpsWhen_of_jumpBy rfl, fun _ => rfl, fun _ _ => rfl,
    fun _ => rfl, fun ic hic rel => ⟨s.loopBy ic.2 rel, ?_, s.loopBy_spec ic.2 rel⟩,
    fun rel => jumpsWhen_of_jumpIf rfl (beq_eq_decide ..)⟩
  simp only [List.mem_cons, List.not_mem_nil, or_false] at hic
  rcases hic with rfl | rfl | rfl <;> rfl

/-! ### Conditional jumps (R344 to R359, R369) -/

/-- The sixteen conditions of R369 written out: an odd number negates the condition before it. -/
theorem Flags.cond_table (f : Flags) :
    f.cond 0 = f.ofl ∧ f.cond 1 = !f.ofl ∧ f.cond 2 = f.cf ∧ f.cond 3 = !f.cf ∧ f.cond 4 = f.zf ∧ f.cond 5 = !f.zf ∧
      f.cond 6 = (f.cf || f.zf) ∧ f.cond 7 = (!f.cf && !f.zf) ∧ f.cond 8 = f.sf ∧ f.cond 9 = !f.sf ∧
      f.cond 10 = f.pf ∧ f.cond 11 = !f.pf ∧ f.cond 12 = (f.sf != f.ofl) ∧ f.cond 13 = (f.sf == f.ofl) ∧
      f.cond 14 = (f.zf || f.sf != f.ofl) ∧ f.cond 15 = (!f.zf && f.sf == f.ofl) := by
  have hlt : (f.sf ^^ f.ofl) = (f.sf != f.ofl) := rfl
  have hge : (f.sf == f.ofl) = !(f.sf ^^ f.ofl) := by cases f.sf <;> cases f.ofl <;> rfl
  simp [Flags.cond, hlt, hge, Bool.or_comm]

/-- Settles O56: each is `State.jumpIf` on its line of `Flags.cond_table`. -/
theorem conditionalJumps : Obligations.ConditionalJumps := by
  intro s rel f
  obtain ⟨ho, hno, hb, hnb, hz, hnz, hbe, hnbe, hs, hns, hp, hnp, hl, hnl, hle, hnle⟩ := f.cond_table
  exact ⟨jumpsWhen_of_jumpIf rfl ho, jumpsWhen_of_jumpIf rfl hno, jumpsWhen_of_jumpIf rfl hb,
    jumpsWhen_of_jumpIf rfl hnb, jumpsWhen_of_jumpIf rfl hz, jumpsWhen_of_jumpIf rfl hnz, jumpsWhen_of_jumpIf rfl hbe,
    jumpsWhen_of_jumpIf rfl hnbe, jumpsWhen_of_jumpIf rfl hs, jumpsWhen_of_jumpIf rfl hns, jumpsWhen_of_jumpIf rfl hp,
    jumpsWhen_of_jumpIf rfl hnp, jumpsWhen_of_jumpIf rfl hl, jumpsWhen_of_jumpIf rfl hnl, jumpsWhen_of_jumpIf rfl hle,
    jumpsWhen_of_jumpIf rfl hnle⟩

/-! ### What the returns pop (R340 to R343, R367) -/

/-- The state in which the k words from the top of the stack upward have been popped (R18). -/
def State.popped (s : State) (k : Nat) : State := (stackRead s k).setSp (s.regs.sp + BitVec.ofNat 16 (2 * k))

theorem State.popped_zero (s : State) : s.popped 0 = s := by
  simp [State.popped, stackRead, State.setSp]

theorem stackRead_ss (s : State) (k : Nat) : (stackRead s k).ss = s.ss := by
  induction k with
  | zero => rfl
  | succ k ih => exact ih

theorem stackRead_regs (s : State) (k : Nat) : (stackRead s k).regs = s.regs := by
  induction k with
  | zero => rfl
  | succ k ih => exact ih

theorem State.popped_eq (s : State) (k : Nat) :
    s.popped k = { stackRead s k with regs := { s.regs with sp := s.regs.sp + BitVec.ofNat 16 (2 * k) } } := by
  rw [State.popped, State.setSp, stackRead_regs]

theorem State.popped_stackAddr (s : State) (k : Nat) :
    (s.popped k).stackAddr = lin s.ss (s.regs.sp + BitVec.ofNat 16 (2 * k)) :=
  congrArg (lin · _) (stackRead_ss s k)

/-- The next word popped is the next one up (R18). -/
theorem State.top16_popped (s : State) (k : Nat) : (s.popped k).top16 = stackWord s k := by
  rw [State.top16, State.popped_stackAddr]
  rfl

theorem State.drop16_popped (s : State) (k : Nat) : (s.popped k).drop16 = s.popped (k + 1) := by
  have hsp : s.regs.sp + BitVec.ofNat 16 (2 * k) + 2 = s.regs.sp + BitVec.ofNat 16 (2 * (k + 1)) := by
    rw [Nat.mul_succ, BitVec.ofNat_add, BitVec.add_assoc]
    rfl
  rw [State.drop16, State.popped_stackAddr]
  simp only [State.popped, State.setSp_regs, hsp]
  rfl

theorem State.drop16_eq_popped (s : State) : s.drop16 = s.popped 1 := by
  rw [← State.drop16_popped, State.popped_zero]

theorem State.top16_eq_stackWord (s : State) : s.top16 = stackWord s 0 := by
  rw [← State.top16_popped, State.popped_zero]

/-! A pop does not look at `IP` or `CS`, and leaves them. -/

section
variable (s : State) (v : Word)

@[simp] theorem State.top16_setIp : (s.setIp v).top16 = s.top16 := rfl
@[simp] theorem State.top16_setCs : (s.setCs v).top16 = s.top16 := rfl
@[simp] theorem State.drop16_setIp : (s.setIp v).drop16 = s.drop16.setIp v := rfl
@[simp] theorem State.drop16_setCs : (s.setCs v).drop16 = s.drop16.setCs v := rfl

end

/-- `RET`: the word at the top into `IP`, then the parameters released (R340, R341). -/
theorem State.retNear_eq (s : State) (n : Word) :
    s.retNear n = { stackRead s 1 with ip := stackTop s, regs := { s.regs with sp := s.regs.sp + 2 + n } } := by
  rw [State.retNear, State.drop16_eq]
  rfl

/-- `RETF`: two words popped, into `IP` and then `CS`, and the parameters released (R342, R343). -/
theorem State.retFar_eq (s : State) (n : Word) :
    s.retFar n =
      { stackRead s 2 with
        ip := stackWord s 0, cs := stackWord s 1
        regs := { s.regs with sp := s.regs.sp + 4 + n } } := by
  simp only [State.retFar, State.drop16_setIp, State.top16_setIp]
  rw [s.drop16_eq_popped, s.top16_eq_stackWord, State.drop16_popped, State.top16_popped]
  simp only [State.popped_eq, Nat.reduceAdd, State.setIp, State.setCs, State.setSp]
  rfl

/-- `IRET`: three words popped, into `IP`, `CS` and the flags (R367). -/
theorem State.interruptReturn_eq (s : State) :
    s.interruptReturn =
      { stackRead s 3 with
        ip := stackWord s 0, cs := stackWord s 1, flags := flagsOfImage (stackWord s 2)
        regs := { s.regs with sp := s.regs.sp + 6 } } := by
  simp only [State.interruptReturn, State.drop16_setIp, State.top16_setIp, State.drop16_setCs, State.top16_setCs]
  rw [s.drop16_eq_popped, s.top16_eq_stackWord, State.drop16_popped, State.top16_popped, State.drop16_popped,
    State.top16_popped]
  simp only [State.popped_eq, Nat.reduceAdd, State.setIp, State.setCs, State.setFlags]
  rfl

/-- Settles O30: `State.interruptReturn_eq`. -/
theorem iretPops : Obligations.IretPops :=
  ⟨rfl, fun s => ⟨_, rfl, s.interruptReturn_eq⟩⟩

/-! ### What the calls push (R336 to R339) -/

theorem wordFrame_push16 (s : State) (v : Word) :
    WordFrame s (s.push16 v) [.sp] [lin s.ss (s.regs.sp - 2), lin s.ss (s.regs.sp - 2) + 1] :=
  (wordFrame_set16 s .sp (s.regs.sp - 2)).trans (wordFrame_write16 ..)

/-- Two words pushed: each is stored, the second below the first, and nothing else but `SP` changes (R18). -/
theorem State.push16_push16_spec (s : State) (v w : Word) :
    WordStored s ((s.push16 v).push16 w) (lin s.ss (s.regs.sp - 2)) v ∧
      WordStored s ((s.push16 v).push16 w) (lin s.ss (s.regs.sp - 4)) w ∧
      ((s.push16 v).push16 w).regs = { s.regs with sp := s.regs.sp - 4 } ∧
      WordFrame s ((s.push16 v).push16 w) [.sp]
        [lin s.ss (s.regs.sp - 2), lin s.ss (s.regs.sp - 2) + 1, lin s.ss (s.regs.sp - 4),
          lin s.ss (s.regs.sp - 4) + 1] := by
  have e4 : s.regs.sp - 2 - 2 = s.regs.sp - 4 := BitVec.sub_sub ..
  have h1 := wordFrame_push16 s v
  have h2 := wordFrame_push16 (s.push16 v) w
  have w1 := (s.push16_spec v).1
  have w2 := ((s.push16 v).push16_spec w).1
  have hdiff := not_sameCell_below s s.ss (s.regs.sp - 2) 2 (.inl rfl)
  simp only [State.push16_regs, State.push16_ss, e4] at h2 w2
  rw [e4] at hdiff
  refine ⟨w1.through h1.storesOnly.memMap h2.storesOnly fun x hx b hb => (hdiff x hx b hb).1,
    w2.before h1.storesOnly fun x hx b hb => (hdiff b hb x hx).2, ?_, (h1.trans h2).mono (by simp)⟩
  simp only [State.push16_regs, e4]

/-- A frame stays one of a transfer when `CS` and `IP` are loaded. -/
theorem WordFrame.jumpFar {s t : State} {l : List Reg16} {cells : List Addr} (h : WordFrame s t l cells)
    (off seg : Word) : TransferFrame s (t.jumpFar off seg) l cells := by
  obtain ⟨hreg, ⟨-, hds, hes, hss⟩, -, hmem, hsame, hcga, hgrows, hdev⟩ := h
  exact ⟨hreg, hds, hes, hss, hmem, congrArg (State.jumpFar · off seg) hsame, hcga, hgrows, hdev⟩

/-- A word stored stays so when `CS` and `IP` are loaded. -/
theorem WordStored.jumpFar {s t : State} {a : Addr} {v : Word} (h : WordStored s t a v) (off seg : Word) :
    WordStored s (t.jumpFar off seg) a v := h

/-- What a near call does (R336, R337). -/
def CalledNear (s t : State) (target : Word) : Prop :=
  WordStored s t (lin s.ss (s.regs.sp - 2)) s.ip ∧ t.ip = target ∧ t.cs = s.cs ∧
    t.regs = { s.regs with sp := s.regs.sp - 2 } ∧ t.flags = s.flags ∧
    TransferFrame s t [.sp] [lin s.ss (s.regs.sp - 2), lin s.ss (s.regs.sp - 2) + 1]

/-- What a far call does (R338, R339). -/
def CalledFar (s t : State) (off seg : Word) : Prop :=
  WordStored s t (lin s.ss (s.regs.sp - 2)) s.cs ∧ WordStored s t (lin s.ss (s.regs.sp - 4)) s.ip ∧ t.ip = off ∧
    t.cs = seg ∧ t.regs = { s.regs with sp := s.regs.sp - 4 } ∧ t.flags = s.flags ∧
    TransferFrame s t [.sp]
      [lin s.ss (s.regs.sp - 2), lin s.ss (s.regs.sp - 2) + 1, lin s.ss (s.regs.sp - 4), lin s.ss (s.regs.sp - 4) + 1]

theorem State.callNear_spec (s : State) (target : Word) : CalledNear s (s.callNear target) target :=
  ⟨(s.push16_spec s.ip).1, rfl, State.push16_cs .., State.push16_regs .., State.push16_flags ..,
    (wordFrame_push16 s s.ip).jumpFar target (s.push16 s.ip).cs⟩

theorem State.callFar_spec (s : State) (off seg : Word) : CalledFar s (s.callFar off seg) off seg := by
  obtain ⟨hcs, hip, hregs, hframe⟩ := s.push16_push16_spec s.cs s.ip
  have hflags : ((s.push16 s.cs).push16 s.ip).flags = s.flags := by simp
  rw [State.callFar]
  exact ⟨hcs.jumpFar off seg, hip.jumpFar off seg, rfl, rfl, hregs, hflags, hframe.jumpFar off seg⟩

/-- A call after the read of its operand is a call: the read adds to the platform's history only (R105). -/
theorem CalledNear.beside {s t : State} {es : List DeviceEvent} {target : Word} (hb : Beside s (s.note es))
    (h : CalledNear (s.note es) t target) : CalledNear s t target := by
  obtain ⟨hstored, hip, hcs, hregs, hflags, hframe⟩ := h
  exact ⟨hstored.earlier rfl rfl rfl hb.2.1, hip, hcs, hregs, hflags, hframe.beside hb⟩

theorem CalledFar.beside {s t : State} {es : List DeviceEvent} {off seg : Word} (hb : Beside s (s.note es))
    (h : CalledFar (s.note es) t off seg) : CalledFar s t off seg := by
  obtain ⟨hstored, hstored', hip, hcs, hregs, hflags, hframe⟩ := h
  exact ⟨hstored.earlier rfl rfl rfl hb.2.1, hstored'.earlier rfl rfl rfl hb.2.1, hip, hcs, hregs, hflags,
    hframe.beside hb⟩

/-- Settles O57: `State.callNear_spec` and `State.callFar_spec` after the read of the operand, and what the returns pop. -/
theorem callsAndReturns : Obligations.CallsAndReturns := by
  intro s
  refine ⟨fun rel => ⟨_, rfl, s.callNear_spec (s.ip + rel)⟩, fun rm => ⟨_, rfl, ?_⟩,
    fun off seg => ⟨_, rfl, s.callFar_spec off seg⟩, fun m => ⟨_, rfl, ?_⟩, ?_, fun n => ?_, ?_, fun n => ?_⟩
  · exact CalledNear.beside (beside_afterLoad16 s (s.place rm)) (State.callNear_spec _ (s.rm16 rm))
  · exact CalledFar.beside (beside_afterRead16 s (s.memAddr m)) (CalledFar.beside (beside_afterRead16 _ (s.memAddr2 m))
      (State.callFar_spec _ (s.farOff m) (s.farSeg m)))
  · exact congrArg (.next · : State → Result) ((s.retNear_eq 0).trans (by simp))
  · exact congrArg (.next · : State → Result) (s.retNear_eq n)
  · exact congrArg (.next · : State → Result) ((s.retFar_eq 0).trans (by simp))
  · exact congrArg (.next · : State → Result) (s.retFar_eq n)

end Sys2Proof.Machine

/-! SUPPORT. Processor control (45_processor_control.md): `HLT`, the steps after it and what a step hands the host, the
flag instructions and the prefix bytes. -/

namespace Sys2Proof.Machine

/-! ### `HLT`, and the steps after it (R378, R403, R409) -/

/-- With interrupts enabled `HLT` halts. -/
theorem State.haltNow_of_ifl {s : State} (h : s.flags.ifl = true) : s.haltNow = { s with halt := true } := if_pos h

/-- With interrupts disabled `HLT` ends the run. -/
theorem State.haltNow_of_not_ifl {s : State} (h : s.flags.ifl = false) : s.haltNow = { s with ended := true } :=
  if_neg (Bool.eq_false_iff.1 h)

/-- A halted processor that acknowledges no request does nothing. -/
theorem State.procStep_of_halt {s : State} (he : s.ended = false) (hh : s.halt = true)
    (hi : s.flags.ifl = false ∨ s.pic.nextPending = none) : s.procStep = .next s :=
  (State.procStep_of_none he hi).trans (if_pos hh)

theorem State.procStep_of_ended {s : State} (he : s.ended = true) : s.procStep = .refused .afterCpuHalt := by
  simp [State.procStep, Config.v20Support, he]

/-- After the end every step is refused. -/
theorem step_of_ended {s : State} (he : s.ended = true) : step s = .refused .afterCpuHalt := by
  rw [step, State.turn, State.procStep_of_ended (s := s.takeInput) he]

/-! ### What a step hands the host (R12, R400, R421) -/

/-- A step that completes leaves a positive cycle count, a draw. -/
theorem cycles_pos_of_step {s t : State} (h : step s = .next t) : 0 < t.cycles := by
  obtain ⟨u, -, -, -, rfl⟩ := step_turn h
  exact (u.afterStep_spec s.nextInput.elapsedNs).1

theorem State.handed_of_next {s t : State} (h : step s = .next t) :
    s.handed = some (t.cycles, if t.ended then .cpuHalt else .success) := by
  rw [State.handed, show s.turn = .next t from h]

theorem State.handed_of_invalidOpcode {s : State} (h : step s = .fault .invalidOpcode) :
    s.handed = some (s.drawnCycles, .invalidOpcode) := by
  rw [State.handed, show s.turn = .fault .invalidOpcode from h]

theorem State.handed_of_ended {s : State} (he : s.ended = true) : s.handed = none := by
  rw [State.handed, show s.turn = .refused .afterCpuHalt from step_of_ended he]
  rfl

/-- Settles O11: `HLT` is `State.haltNow`, the steps after it `State.procStep_of_halt` and `step_of_ended`, and what a
step hands the host is read off its result. -/
theorem hltHaltsOrEnds : Obligations.HltHaltsOrEnds :=
  ⟨rfl, fun _ h => congrArg (.next · : State → Result) (State.haltNow_of_ifl h),
    fun _ h => congrArg (.next · : State → Result) (State.haltNow_of_not_ifl h),
    fun _ => State.procStep_of_halt, fun _ he => ⟨step_of_ended he, State.handed_of_ended he⟩,
    fun s => ⟨fun _ h => ⟨cycles_pos_of_step h, State.handed_of_next h⟩,
      fun h => ⟨s.drawnCycles, Nat.succ_pos _, State.handed_of_invalidOpcode h⟩⟩⟩

/-! ### The flag instructions, `NOP`, `WAIT`, `ESC` and the prefix bytes (R370 to R377, R379 to R383, R132) -/

theorem State.setFlags_eq (s : State) (f : Flags) : s.setFlags f = { s with flags := f } := rfl

/-- A segment override prefix names its segment and leaves what else is pending (R132). -/
theorem State.override_eq (s : State) (r : SReg) :
    s.override r = { s with pend := { s.pend with ovr := some r } } := rfl

/-- A repeat prefix names its repeat and leaves what else is pending (R132). -/
theorem State.repeatPrefix_eq (s : State) (r : Rep) :
    s.repeatPrefix r = { s with pend := { s.pend with rep := some r } } := rfl

/-- Settles O58, each by the definition of its arm: an instruction of one flag is `State.setFlags`, a segment override
`State.override` and a repeat prefix `State.repeatPrefix`, the record updates that the statement writes out. -/
theorem processorControl : Obligations.ProcessorControl := by
  intro s
  refine ⟨?clc, ?stc, ?cmc, ?cld, ?std, ?cli, ?sti, ?nop, ?wait, fun op rm => ?esc, ?es, ?cs, ?ss, ?ds, ?lock, ?repne,
    ?rep, ?bytes⟩
  case clc | stc | cmc | cld | std | cli | sti => exact congrArg (.next · : State → Result) (s.setFlags_eq _)
  case nop | wait | esc => rfl
  case es | cs | ss | ds => exact congrArg (.next · : State → Result) (s.override_eq _)
  case lock => rfl
  case repne | rep => exact congrArg (.next · : State → Result) (s.repeatPrefix_eq _)
  case bytes => rfl

end Sys2Proof.Machine

/-! SUPPORT. Interrupts (60_exceptions.md): an entry and the return from it, the interrupt controller, and the interrupt
check of a step. -/

namespace Sys2Proof.Machine

/-! ### What an entry leaves (R404) -/

/-- Settles O27: the parts are `entered_interrupt`, `transferFrame_interrupt` and `State.interrupt_draws`. -/
theorem interruptEntryFrame : Obligations.InterruptEntryFrame := fun s n =>
  ⟨entered_interrupt s n, transferFrame_interrupt s n, s.interrupt_draws n⟩

/-! ### `INT n` and then `IRET` (R364, R367, R416) -/

/-- A device that keeps what is written is not one of the platform's (R87, R462). -/
theorem not_platformOwns_of_keeps {s : State} {a : Addr} (h : Keeps s a = true) : ¬PlatformOwns s a := by
  rintro ⟨d, hd⟩
  simp [Keeps, hd] at h

/-- A word stored reads back where devices keep both its bytes. -/
theorem WordStored.read16 {s t : State} {a : Addr} {v : Word} (h : WordStored s t a v) (hm : t.memMap = s.memMap)
    (ha : Keeps s a = true) (ha' : Keeps s (a + 1) = true) : t.read16 a = v := by
  have hn : ¬PlatformOwns t a := not_platformOwns_of_keeps ((Keeps.congr hm a).trans ha)
  rw [State.read16, State.afterRead8_of_not hn, h.1.read8 ha, h.2.read8 ha', mkWord_loByte_hiByte]

/-- Reading a word of the stack that devices keep changes nothing (R88). -/
theorem stackRead_succ_of_keeps {s : State} {k : Nat} {x : Word} (hk : stackRead s k = s)
    (hx : s.regs.sp + BitVec.ofNat 16 (2 * k) = x) (ha : Keeps s (lin s.ss x) = true)
    (ha' : Keeps s (lin s.ss x + 1) = true) : stackRead s (k + 1) = s := by
  rw [stackRead, hk, hx]
  exact State.afterRead16_of_not (not_platformOwns_of_keeps ha) (not_platformOwns_of_keeps ha')

/-- The return from an interrupt whose frame stands on the stack, in memory that keeps it: `IP`, `CS` and the flags are
those of the frame, and `SP` is above it again (R367, R416). -/
theorem State.interruptReturn_of_entered {s t : State} {n : Byte} (h : Entered s t n) (hss : t.ss = s.ss)
    (hm : t.memMap = s.memMap) (hk : ∀ a ∈ entryCells s, Keeps s a = true) :
    t.interruptReturn =
      { t with ip := s.ip, cs := s.cs, flags := s.flags, regs := { t.regs with sp := s.regs.sp } } := by
  obtain ⟨hsp, hflags, hcs, hip, -⟩ := h
  simp only [entryCells, List.forall_mem_cons] at hk
  obtain ⟨k2, k2', k4, k4', k6, k6', -⟩ := hk
  -- the words of the frame, from the top of the stack upward
  have e0 : t.regs.sp + BitVec.ofNat 16 (2 * 0) = s.regs.sp - 6 := by rw [hsp]; bv_omega
  have e1 : t.regs.sp + BitVec.ofNat 16 (2 * 1) = s.regs.sp - 4 := by rw [hsp]; bv_omega
  have e2 : t.regs.sp + BitVec.ofNat 16 (2 * 2) = s.regs.sp - 2 := by rw [hsp]; bv_omega
  have e3 : t.regs.sp + 6 = s.regs.sp := by rw [hsp]; bv_omega
  -- reading them changes nothing
  have hkeep (x : Word) : Keeps t (lin t.ss x) = Keeps s (lin s.ss x) := by rw [Keeps.congr hm, hss]
  have hkeep' (x : Word) : Keeps t (lin t.ss x + 1) = Keeps s (lin s.ss x + 1) := by rw [Keeps.congr hm, hss]
  have r1 : stackRead t 1 = t := stackRead_succ_of_keeps rfl e0 ((hkeep _).trans k6) ((hkeep' _).trans k6')
  have r2 : stackRead t 2 = t := stackRead_succ_of_keeps r1 e1 ((hkeep _).trans k4) ((hkeep' _).trans k4')
  have r3 : stackRead t 3 = t := stackRead_succ_of_keeps r2 e2 ((hkeep _).trans k2) ((hkeep' _).trans k2')
  have w0 : stackWord t 0 = s.ip := by rw [stackWord, e0, hss]; exact hip.read16 hm k6 k6'
  have w1 : stackWord t 1 = s.cs := by rw [stackWord, r1, e1, hss, hcs.read16 hm k4 k4']
  have w2 : stackWord t 2 = s.flags.image := by rw [stackWord, r2, e2, hss, hflags.read16 hm k2 k2']
  rw [State.interruptReturn_eq, r3, w0, w1, w2, flagsOfImage_image, e3]

/-- Registers that read alike are the same. -/
theorem Regs.eq_of_get {x y : Regs} (h : ∀ r, x.get r = y.get r) : x = y := by
  cases x
  cases y
  exact (Regs.mk.injEq ..).mpr ⟨h .ax, h .cx, h .dx, h .bx, h .sp, h .bp, h .si, h .di⟩

/-- With `SP` put back, what changes no other register changes none. -/
theorem RegistersOutside.restore_sp {s t : State} (h : RegistersOutside s t [.sp]) :
    { t.regs with sp := s.regs.sp } = s.regs := by
  refine Regs.eq_of_get fun r => (t.regs.get_put .sp r s.regs.sp).trans ?_
  split
  · subst r
    rfl
  · exact h r (by simpa)

/-- Settles O28: the entry is `entered_interrupt`, and `State.interruptReturn_of_entered` undoes it. -/
theorem intThenIretRestores : Obligations.IntThenIretRestores := by
  intro s n hn hk
  obtain ⟨hregs, -, -, hss, -, hsame, -⟩ := transferFrame_interrupt s n
  have hret := State.interruptReturn_of_entered (entered_interrupt s n) hss (by rw [hsame]) hk
  exact ⟨_, _, congrArg (.next · : State → Result) (State.softInterrupt_of_no_hook hn),
    congrArg (.next · : State → Result) hret, rfl, rfl, rfl, hregs.restore_sp⟩

/-! ### Bits of the controller's registers -/

/-- `putBit` sets or clears its bit and leaves the others. -/
theorem getLsbD_putBit (v : Byte) {i j : Nat} (b : Bool) (hj : j < 8) :
    (putBit v i b).getLsbD j = if j = i then b else v.getLsbD j := by
  have hone : (1#8 <<< i).getLsbD j = decide (j = i) := by
    rw [← BitVec.twoPow_eq, BitVec.getLsbD_twoPow]
    grind
  cases b
  · simp only [putBit, Bool.false_eq_true, if_false, BitVec.getLsbD_and, BitVec.getLsbD_not, hone]
    split <;> simp [*]
  · simp only [putBit, if_true, BitVec.getLsbD_or, hone]
    split <;> simp [*]

/-- The lowest three bits of a byte, which name a line (R435, R438). -/
theorem toNat_extract_line (v : Byte) : (v.extractLsb' 0 3).toNat = v.toNat % 8 := BitVec.extractLsb'_toNat ..

/-! ### Which line is selected (R437) -/

/-- The search of `next_pending` ends at a line that is in service, or requested and not masked (R437). -/
def Pic.endsAt (p : Pic) (i : Nat) : Bool := p.isr.getLsbD i || p.irr.getLsbD i && !p.imr.getLsbD i

/-- The search gives the vector of the line it ends at, unless that line is in service (R437). -/
theorem Pic.scan_eq (p : Pic) (is : List Nat) :
    p.scan is =
      ((is.find? p.endsAt).filter fun i => !p.isr.getLsbD i).map fun i => p.base + BitVec.ofNat 8 i := by
  induction is with
  | nil => rfl
  | cons i is ih =>
    rw [Pic.scan, List.find?_cons, ih, Pic.endsAt]
    cases hs : p.isr.getLsbD i
    · cases p.irr.getLsbD i && !p.imr.getLsbD i <;> simp [Option.filter, hs]
    · simp [Option.filter, hs]

/-- Line i is the one to serve: requested and not masked, no line up to it in service, and no lower line both requested
and not masked (R437). -/
structure Pic.Selects (p : Pic) (i : Nat) : Prop where
  requested : p.irr.getLsbD i = true
  unmasked : p.imr.getLsbD i = false
  idle : ∀ j ≤ i, p.isr.getLsbD j = false
  lowest : ∀ k < i, (p.irr.getLsbD k && !p.imr.getLsbD k) = false

/-- The search ends at a line that is not in service exactly when that line is selected. -/
theorem Pic.selects_iff (p : Pic) (i : Nat) :
    p.Selects i ↔ p.endsAt i = true ∧ (∀ j < i, p.endsAt j = false) ∧ p.isr.getLsbD i = false := by
  simp only [Pic.endsAt, Bool.or_eq_false_iff]
  constructor
  · rintro ⟨hr, hm, hs, hl⟩
    exact ⟨by simp [hr, hm], fun j hj => ⟨hs j hj.le, hl j hj⟩, hs i le_rfl⟩
  · rintro ⟨he, hl, hs⟩
    obtain ⟨hr, hm⟩ : p.irr.getLsbD i = true ∧ p.imr.getLsbD i = false := by simpa [hs] using he
    refine ⟨hr, hm, fun j hj => ?_, fun k hk => (hl k hk).2⟩
    rcases hj.lt_or_eq with hj | rfl
    exacts [(hl j hj).1, hs]

/-- `next_pending()` gives the vector of the selected line (R437). -/
theorem Pic.nextPending_eq_some {p : Pic} {v : Byte} :
    p.nextPending = some v ↔ p.init = .ready ∧ ∃ i < 8, v = p.base + BitVec.ofNat 8 i ∧ p.Selects i := by
  have hscan : p.scan picLines = some v ↔ ∃ i < 8, v = p.base + BitVec.ofNat 8 i ∧ p.Selects i := by
    rw [show picLines = List.range 8 from rfl]
    simp only [Pic.scan_eq, Option.map_eq_some_iff, Option.filter_eq_some_iff, List.find?_range_eq_some, List.mem_range,
      Bool.not_eq_true', Pic.selects_iff]
    grind
  rw [Pic.nextPending, ← hscan]
  cases p.init <;> simp

/-- While an initialisation is under way `next_pending()` gives nothing (D31). -/
theorem Pic.nextPending_of_not_ready {p : Pic} (h : p.init ≠ .ready) : p.nextPending = none :=
  Option.eq_none_iff_forall_ne_some.2 fun _ hv => h (Pic.nextPending_eq_some.1 hv).1

/-! ### Acknowledging (R438, R439) -/

theorem Pic.ack_of_requested {p : Pic} {v : Byte} (h : p.irr.getLsbD (v.toNat % 8) = true) :
    p.ack v =
      (v, { p with isr := putBit p.isr (v.toNat % 8) true, irr := putBit p.irr (v.toNat % 8) false }) := by
  rw [Pic.ack, toNat_extract_line]
  exact if_pos h

/-- A request that has gone gives the spurious vector (R439, D32). -/
theorem Pic.ack_of_not_requested {p : Pic} {v : Byte} (h : p.irr.getLsbD (v.toNat % 8) = false) :
    p.ack v = (p.base + 7, p) := by
  rw [Pic.ack, toNat_extract_line]
  exact if_neg (Bool.eq_false_iff.1 h)

/-- Settles O25: the selected line is `Pic.nextPending_eq_some`, and what raising and acknowledging do to each bit is
`getLsbD_putBit`. -/
theorem picSelectsLowestLine : Obligations.PicSelectsLowestLine := by
  refine ⟨fun p v hinit => ⟨fun hv => ?_, ?_⟩, fun p => Pic.nextPending_of_not_ready, fun p i j => ⟨?_, rfl⟩,
    fun p v => ⟨fun hr => ?_, Pic.ack_of_not_requested⟩⟩
  · obtain ⟨-, i, hi, hv, hr, hm, hs, hl⟩ := Pic.nextPending_eq_some.1 hv
    exact ⟨⟨i, hi⟩, hv, hr, hm, fun j hj => hs j hj, fun k hk => hl k hk⟩
  · rintro ⟨i, hv, hr, hm, hs, hl⟩
    exact Pic.nextPending_eq_some.2 ⟨hinit, i, i.isLt, hv, hr, hm, fun j hj => hs ⟨j, hj.trans_lt i.isLt⟩ hj,
      fun k hk => hl ⟨k, hk.trans i.isLt⟩ hk⟩
  · rw [Pic.raiseIrq, getLsbD_putBit _ _ j.isLt]
    split <;> simp [*, Fin.ext_iff]
  · rw [Pic.ack_of_requested hr]
    refine ⟨rfl, rfl, fun j hj => ?_⟩
    rw [getLsbD_putBit _ _ hj, getLsbD_putBit _ _ hj]
    split <;> simp [*]

/-! ### The command word OCW2 (R435) -/

theorem lowestSet_eq_find? (v : Byte) (is : List Nat) : lowestSet v is = is.find? (v.getLsbD ·) := by
  induction is with
  | nil => rfl
  | cons i is ih => cases h : v.getLsbD i <;> simp [lowestSet, h, ih]

/-- The lines in service after a non-specific EOI (R435). -/
def clearLowest (b : Byte) : Byte :=
  match lowestSet b picLines with
  | some i => putBit b i false
  | none => b

/-- With the lowest bit cleared, a bit stays exactly when a lower one was set. -/
theorem getLsbD_clearLowest (b : Byte) {i : Nat} (hi : i < 8) :
    (clearLowest b).getLsbD i = (b.getLsbD i && (List.range i).any fun j => b.getLsbD j) := by
  rw [clearLowest, lowestSet_eq_find?, show picLines = List.range 8 from rfl]
  cases hf : (List.range 8).find? (b.getLsbD ·) with
  | none =>
    have hnone : b.getLsbD i = false := by simpa using List.find?_range_eq_none.1 hf i hi
    simp [hnone]
  | some k =>
    obtain ⟨hk, -, hlow⟩ := List.find?_range_eq_some.1 hf
    simp only [Bool.not_eq_true'] at hlow
    simp only [getLsbD_putBit _ _ hi]
    rcases lt_trichotomy i k with h | rfl | h
    · simp [hlow i h]
    · have : ((List.range i).any fun j => b.getLsbD j) = false := by simpa using hlow
      simp [this]
    · have : ((List.range i).any fun j => b.getLsbD j) = true := by simpa using ⟨k, h, hk⟩
      simp [this, h.ne']

section
variable {p : Pic} {v : Byte} (h4 : v.getLsbD 4 = false) (h3 : v.getLsbD 3 = false)
include h4 h3

theorem Pic.writeCommand_of_no_eoi (h5 : v.getLsbD 5 = false) : p.writeCommand v = p := by
  simp only [Pic.writeCommand, h4, h3, h5, Bool.false_eq_true, if_false]

theorem Pic.writeCommand_specificEoi (h5 : v.getLsbD 5 = true) (h6 : v.getLsbD 6 = true) :
    p.writeCommand v = { p with isr := putBit p.isr (v.toNat % 8) false } := by
  simp only [Pic.writeCommand, h4, h3, h5, h6, Bool.false_eq_true, if_false, if_true, toNat_extract_line]

theorem Pic.writeCommand_nonspecificEoi (h5 : v.getLsbD 5 = true) (h6 : v.getLsbD 6 = false) :
    p.writeCommand v = { p with isr := clearLowest p.isr } := by
  simp only [Pic.writeCommand, h4, h3, h5, h6, Bool.false_eq_true, if_false, if_true, clearLowest]
  cases lowestSet p.isr picLines <;> rfl

/-- OCW2 ends the service of the lines it names and does nothing else (R435). -/
theorem Pic.writeCommand_ocw2 :
    p.writeCommand v = { p with isr := (p.writeCommand v).isr } ∧
      ∀ i < 8, (p.writeCommand v).isr.getLsbD i =
        (p.isr.getLsbD i &&
          (!v.getLsbD 5 ||
            if v.getLsbD 6 then decide (i ≠ v.toNat % 8) else (List.range i).any fun j => p.isr.getLsbD j)) := by
  cases h5 : v.getLsbD 5
  · rw [Pic.writeCommand_of_no_eoi h4 h3 h5]
    exact ⟨rfl, fun i hi => by simp⟩
  · cases h6 : v.getLsbD 6
    · rw [Pic.writeCommand_nonspecificEoi h4 h3 h5 h6]
      exact ⟨rfl, fun i hi => by simp [getLsbD_clearLowest p.isr hi]⟩
    · rw [Pic.writeCommand_specificEoi h4 h3 h5 h6]
      exact ⟨rfl, fun i hi => by rw [getLsbD_putBit _ _ hi]; split <;> simp [*]⟩

end

/-- OCW3 selects what a read of the command port gives (R434, R435). -/
theorem Pic.writeCommand_ocw3 {p : Pic} {v : Byte} (h4 : v.getLsbD 4 = false) (h3 : v.getLsbD 3 = true) :
    p.writeCommand v = { p with readIsr := if v.getLsbD 1 then v.getLsbD 0 else p.readIsr } := by
  cases h1 : v.getLsbD 1 <;> simp only [Pic.writeCommand, h4, h3, h1, Bool.false_eq_true, if_false, if_true]

/-- Settles O26: the command words by `Pic.writeCommand_ocw2` and `Pic.writeCommand_ocw3`, the data words by where the
initialisation stands. -/
theorem picCommandAndDataWords : Obligations.PicCommandAndDataWords := fun p v =>
  ⟨fun h4 => if_pos h4, Pic.writeCommand_ocw3, Pic.writeCommand_ocw2,
    fun hready => by rw [Pic.writeData, hready], fun hicw2 => by rw [Pic.writeData, hicw2],
    fun hicw3 => by rw [Pic.writeData, hicw3], fun hicw4 => by rw [Pic.writeData, hicw4], rfl, rfl, rfl, rfl⟩

/-! ### The interrupt check (R402) -/

/-- The pushes of an interrupt entry do not look at the interrupt controller. -/
theorem framePushed_pic (s : State) (p : Pic) : framePushed { s with pic := p } = { framePushed s with pic := p } := by
  simp only [framePushed, State.push16, State.write16, State.write8_update]
  rfl

/-- An interrupt entry does not look at the interrupt controller, and leaves it. -/
theorem State.interrupt_pic (s : State) (p : Pic) (n : Byte) :
    ({ s with pic := p } : State).interrupt n = { s.interrupt n with pic := p } := by
  rw [State.interrupt_eq, State.interrupt_eq, framePushed_pic]
  generalize framePushed s = q
  rfl

/-- The vector of a line has the line as its lowest three bits, when the base is a multiple of 8 (R47, R437). -/
theorem toNat_vector {base : Byte} {i : Nat} (hb : base &&& 7 = 0) (hi : i < 8) :
    (base + BitVec.ofNat 8 i).toNat = base.toNat + i ∧ (base + BitVec.ofNat 8 i).toNat % 8 = i := by
  have hmod : base.toNat % 8 = 0 := by
    have := congrArg BitVec.toNat hb
    rwa [BitVec.toNat_and, show (7 : Byte).toNat = 2 ^ 3 - 1 from rfl, Nat.and_two_pow_sub_one_eq_mod] at this
  have := base.isLt
  rw [BitVec.toNat_add, BitVec.toNat_ofNat]
  omega

/-- A pending request with `IF` set is acknowledged and its vector entered (R402). -/
theorem State.interruptCheck_of_some {s : State} {i : Nat} (hif : s.flags.ifl = true) (hi : i < 8)
    (hn : s.pic.nextPending = some (s.pic.base + BitVec.ofNat 8 i)) (hb : s.pic.base &&& 7 = 0)
    (hr : s.pic.irr.getLsbD i = true) :
    s.interruptCheck =
      { s.interrupt (s.pic.base + BitVec.ofNat 8 i) with
        pic := { s.pic with isr := putBit s.pic.isr i true, irr := putBit s.pic.irr i false }, halt := false } := by
  have hline := (toNat_vector hb hi).2
  have hack := Pic.ack_of_requested (p := s.pic) (v := s.pic.base + BitVec.ofNat 8 i) (by rwa [hline])
  rw [hline] at hack
  simp only [State.interruptCheck, hif, hn, if_true, hack, State.interrupt_pic]

/-- Settles O10: the vector is that of a requested line, `Pic.nextPending_eq_some`, and the check enters it,
`State.interruptCheck_of_some`. -/
theorem interruptCheckAcknowledges : Obligations.InterruptCheckAcknowledges := by
  refine ⟨fun s => State.interruptCheck_of_none, fun s v hif hv hb => ?_, fun s he => ?_⟩
  · obtain ⟨-, i, hi, rfl, hsel⟩ := Pic.nextPending_eq_some.1 hv
    rw [State.interruptCheck_of_some hif hi hv hb hsel.requested]
    have hent := entered_interrupt s (s.pic.base + BitVec.ofNat 8 i)
    have hreg := registersOutside_interrupt s (s.pic.base + BitVec.ofNat 8 i)
    have hmem := memoryOutside_interrupt s (s.pic.base + BitVec.ofNat 8 i)
    generalize s.interrupt _ = t at *
    exact ⟨⟨i, hi⟩, (toNat_vector hb hi).1, hent, rfl, rfl, hreg, hmem⟩
  · simp [State.procStep, Config.v20Support, Config.debuggerPresent, he]

end Sys2Proof.Machine

/-! SUPPORT. The CGA (61_cga.md): its memory and its ports, the scanline counter, the pixels of a frame, and the render
task. -/

namespace Sys2Proof.Machine

/-! ### The aliased memory (R461, R462) -/

/-- Who owns the addresses after reset (R461; log entry 10). -/
theorem memOwner_defaultMemMap (a : Addr) :
    memOwner defaultMemMap a = if 0xB8000 ≤ a.toNat ∧ a.toNat ≤ 0xBFFFF then some .cga else some .ram := by
  have ha := a.isLt
  unfold memOwner defaultMemMap
  by_cases hlow : a.toNat ≤ 0xB7FFF
  · rw [if_neg (by omega)]
    simp [hlow]
  · by_cases hcga : a.toNat ≤ 0xBFFFF
    · rw [if_pos (by omega)]
      simp [hlow, hcga, show 0xB8000 ≤ a.toNat by omega]
    · rw [if_neg (by omega)]
      simp [hlow, hcga, show 0xC0000 ≤ a.toNat by omega, show a.toNat ≤ 0xFFFFF by omega]

theorem vramIndex_eq_mod (a : Addr) : vramIndex a = a.toNat % 0x4000 := BitVec.extractLsb'_toNat ..

/-- Two addresses of one byte read alike (R461). -/
theorem SameCell.read8_eq {s : State} {a b : Addr} (h : SameCell s a b) : s.read8 a = s.read8 b := by
  rcases h with rfl | ⟨ha, hb, hi⟩
  · rfl
  · simp only [State.read8, ha, hb, Cga.readByte, hi]

theorem keeps_of_cga {s : State} {a : Addr} (h : memOwner s.memMap a = some .cga) : Keeps s a = true := by
  rw [Keeps, h]
  rfl

/-- Settles O17: addresses that agree in their low 14 bits are one cell, `SameCell`, and a byte written changes no other
cell, `State.read8_write8_other`. -/
theorem cgaMemoryAliases : Obligations.CgaMemoryAliases := by
  refine ⟨fun a => ?_, fun s a b v ha hb hab => ?_⟩
  · rw [memOwner_defaultMemMap]
    split_ifs with h <;> simp [h]
  · have hcell : SameCell s a b := .inr ⟨ha, hb, by rw [vramIndex_eq_mod, vramIndex_eq_mod, hab]⟩
    have hcell' : SameCell (s.write8 a v) a b := (SameCell.congr (s.write8_memMap a v) a b).2 hcell
    refine ⟨?_, hcell.read8_eq, ?_, fun d hd => ?_⟩
    · rw [← hcell'.read8_eq]
      exact (s.byteStored_write8 a v).read8 (keeps_of_cga ha)
    · rw [State.write8, ha]
      rfl
    · have hne : ¬SameCell s d a := by
        rintro (rfl | ⟨hdo, -, hi⟩)
        · exact hd ha rfl
        · exact hd hdo (by rwa [vramIndex_eq_mod, vramIndex_eq_mod] at hi)
      exact State.read8_write8_other s a d v hne fun _ =>
        State.write8_devices_of_not v (not_platformOwns_of_keeps (keeps_of_cga ha))

/-! ### The CRT registers (R464 to R466) -/

/-- A CRT register after a write of the indexed one (R465). -/
theorem getElem_crtReg_set (t : Vector Byte 256) (i v : Byte) (k : Fin 256) :
    (t.set i.toFin v)[k] = if k = i.toFin then v else t[k] := by
  simp only [Fin.getElem_fin, Vector.getElem_set, ← Fin.ext_iff, eq_comm]

theorem mkWord_loByte_eq_or (w : Word) (v : Byte) :
    mkWord (loByte w) v = w &&& (0x00FF : Word) ||| v.setWidth 16 <<< 8 := by
  have hmask : ∀ k < 16, (0x00FF : Word).getLsbD k = decide (k < 8) := by decide
  refine BitVec.eq_of_getLsbD_eq fun k hk => ?_
  rw [getLsbD_mkWord, BitVec.getLsbD_or, BitVec.getLsbD_and, hmask k hk]
  by_cases h8 : k < 8
  · simp [loByte, h8, hk]
  · simp [h8, hk]

theorem mkWord_hiByte_eq_or (w : Word) (v : Byte) :
    mkWord v (hiByte w) = w &&& (0xFF00 : Word) ||| v.setWidth 16 := by
  have hmask : ∀ k < 16, (0xFF00 : Word).getLsbD k = decide (8 ≤ k) := by decide
  refine BitVec.eq_of_getLsbD_eq fun k hk => ?_
  rw [getLsbD_mkWord, BitVec.getLsbD_or, BitVec.getLsbD_and, hmask k hk]
  by_cases h8 : k < 8
  · simp [h8, hk]
  · have hhi : k - 8 < 8 := by omega
    have hk8 : 8 + (k - 8) = k := by omega
    simp [hiByte, h8, hk, hhi, hk8, Nat.not_lt.1 h8]

/-- What a write of the indexed CRT register does, field by field (R465, R466). -/
theorem Cga.writeCrt_spec (c : Cga) (v : Byte) :
    c.writeCrt v =
      { c with
        crtReg := c.crtReg.set c.crtIndex.toFin v
        cursorVisible := if c.crtIndex = 0x0A then !v.getLsbD 5 else c.cursorVisible
        cursorPos :=
          if c.crtIndex = 0x0E then c.cursorPos &&& (0x00FF : Word) ||| v.setWidth 16 <<< 8
          else if c.crtIndex = 0x0F then c.cursorPos &&& (0xFF00 : Word) ||| v.setWidth 16
          else c.cursorPos } := by
  rw [← mkWord_loByte_eq_or, ← mkWord_hiByte_eq_or, Cga.writeCrt]
  by_cases hA : c.crtIndex = 0x0A
  · simp only [hA]
    rfl
  by_cases hE : c.crtIndex = 0x0E
  · simp only [hE]
    rfl
  by_cases hF : c.crtIndex = 0x0F
  · simp only [hF]
    rfl
  · simp only [hA, hE, hF, if_false]

theorem Cga.portOut_index (c : Cga) (v : Byte) {p : Word} (hp : p ∈ ([0x3D0, 0x3D2, 0x3D4, 0x3D6] : List Word)) :
    c.portOut p v = { c with crtIndex := v } := by
  simp only [List.mem_cons, List.not_mem_nil, or_false] at hp
  rcases hp with rfl | rfl | rfl | rfl <;> rfl

theorem Cga.port_data (c : Cga) (v : Byte) {p : Word} (hp : p ∈ ([0x3D1, 0x3D3, 0x3D5, 0x3D7] : List Word)) :
    c.portIn p = (c.crtByte, c) ∧ c.portOut p v = c.writeCrt v := by
  simp only [List.mem_cons, List.not_mem_nil, or_false] at hp
  rcases hp with rfl | rfl | rfl | rfl <;> exact ⟨rfl, rfl⟩

/-- Settles O19: a data port is the indexed register, and a write of it is `Cga.writeCrt_spec`. -/
theorem crtRegisterFile : Obligations.CrtRegisterFile := by
  refine fun c v => ⟨fun p hp => c.portOut_index v hp, fun p hp => ?_⟩
  obtain ⟨hin, hout⟩ := c.port_data v hp
  rw [hin, hout, c.writeCrt_spec v]
  exact ⟨rfl, getElem_crtReg_set c.crtReg c.crtIndex v, rfl, rfl, rfl⟩

/-! ### The other ports (R463, R467 to R469) -/

/-- Settles O20: each port by its own line of R463's table. -/
theorem cgaStatusAndControlPorts : Obligations.CgaStatusAndControlPorts := by
  refine fun c v => ⟨rfl, rfl, rfl, fun p hp => ?_, fun p hp => ?_⟩
  all_goals simp only [List.mem_cons, List.not_mem_nil, or_false] at hp
  · rcases hp with rfl | rfl | rfl | rfl | rfl | rfl <;> rfl
  · rcases hp with rfl | rfl | rfl | rfl | rfl | rfl | rfl | rfl | rfl | rfl | rfl <;> rfl

/-! ### The scanline counter (R471, R472) -/

theorem Cga.advance_succ (c : Cga) (k : Nat) : c.advance (k + 1) = (c.advance k).scanlineTurn := by
  induction k generalizing c with
  | zero => rfl
  | succ k ih => exact ih c.scanlineTurn

theorem Cga.advance_lastScanlineNs (c : Cga) (k : Nat) :
    (c.advance k).lastScanlineNs = c.lastScanlineNs + k * 31469 := by
  induction k with
  | zero => simp [Cga.advance]
  | succ k ih =>
    have hturn : (c.advance k).scanlineTurn.lastScanlineNs = (c.advance k).lastScanlineNs + 31469 := rfl
    rw [Cga.advance_succ, hturn, ih]
    omega

theorem Cga.advance_scanline (c : Cga) (k : Nat) : (c.advance k).scanline.val = (c.scanline.val + k) % 525 := by
  induction k with
  | zero => exact (Nat.mod_eq_of_lt c.scanline.isLt).symm
  | succ k ih =>
    rw [Cga.advance_succ, Cga.scanlineTurn, Fin.val_add, ih]
    simp [Nat.add_assoc]

/-- An advance sets bit 0 of the status, and bit 3 says whether the new scanline is in retrace (R472). -/
theorem Cga.scanlineTurn_status (c : Cga) :
    c.scanlineTurn.status.getLsbD 0 = true ∧
      c.scanlineTurn.status.getLsbD 3 = decide (479 < c.scanlineTurn.scanline.val) := by
  simp only [Cga.scanlineTurn]
  split_ifs with h <;> simp [h]

/-- An advance keeps the other six bits of the status (R472). -/
theorem Cga.scanlineTurn_status_kept (c : Cga) : c.scanlineTurn.status &&& 0xF6 = c.status &&& 0xF6 := by
  simp only [Cga.scanlineTurn]
  split_ifs <;> simp [BitVec.and_or_distrib_right, BitVec.and_assoc]

theorem Cga.advance_status_kept (c : Cga) (k : Nat) : (c.advance k).status &&& 0xF6 = c.status &&& 0xF6 := by
  induction k with
  | zero => rfl
  | succ k ih => rw [Cga.advance_succ, Cga.scanlineTurn_status_kept, ih]

theorem Cga.step_lastScanlineNs (c : Cga) (cycles now : Nat) :
    (c.step cycles now).lastScanlineNs = c.lastScanlineNs + (now - c.lastScanlineNs) / 31469 * 31469 :=
  c.advance_lastScanlineNs _

/-- Settles O21: the loop of R471 in closed form, `Cga.advance_lastScanlineNs`, `Cga.advance_scanline` and the status of
its last turn. -/
theorem scanlineAdvance : Obligations.ScanlineAdvance := by
  intro c cycles now k d
  have hlast : d.lastScanlineNs = c.lastScanlineNs + k * 31469 := c.step_lastScanlineNs cycles now
  refine ⟨c.advance_scanline k, hlast, ?_, rfl, fun hk => ?_, fun hk => ?_, rfl⟩
  · rw [hlast]
    omega
  · show (c.advance k).status = c.status
    rw [hk, Cga.advance]
  · show (c.advance k).status.getLsbD 0 = true ∧
      (c.advance k).status.getLsbD 3 = decide (479 < (c.advance k).scanline.val) ∧
      (c.advance k).status &&& 0xF6 = c.status &&& 0xF6
    obtain ⟨n, hn⟩ := Nat.exists_eq_succ_of_ne_zero hk
    obtain ⟨h0, h3⟩ := (c.advance n).scanlineTurn_status
    rw [hn, Cga.advance_succ]
    exact ⟨h0, h3, by rw [Cga.scanlineTurn_status_kept, c.advance_status_kept n]⟩

/-! ### The surface (R491, R492) -/

/-- The four bytes of a pixel of the surface: red, green, blue and alpha (R492). -/
def channel (c : Rgb) : Nat → Byte
  | 0 => c.r
  | 1 => c.g
  | 2 => c.b
  | _ => 0xFF

theorem surfaceByte_eq_channel (p : Snapshot) (blink : Bool) (k : Nat) :
    surfaceByte p blink k = channel (pixelColour p blink (k / 4 % 640) (k / 4 / 640)) (k % 4) := rfl

/-- A render shows at each place the colour of its pixel (R491, R492). -/
theorem shows_render (p : Snapshot) (blink : Bool) {x y : Nat} (hx : x < 640) (hy : y < 200) :
    Shows (render p blink) x y (pixelColour p blink x y) := by
  have hbyte (j : Nat) (hj : j < 4) :
      (render p blink)[(y * 640 + x) * 4 + j]? = some (channel (pixelColour p blink x y) j) := by
    have hpix : ((y * 640 + x) * 4 + j) / 4 = y * 640 + x := by omega
    have hmod : ((y * 640 + x) * 4 + j) % 4 = j := by omega
    have hcol : (y * 640 + x) % 640 = x := by omega
    have hrow : (y * 640 + x) / 640 = y := by omega
    have hsize : (y * 640 + x) * 4 + j < surfaceSize := by unfold surfaceSize; omega
    simp [render, hsize, surfaceByte_eq_channel, hpix, hmod, hcol, hrow]
  exact ⟨hbyte 0 (by omega), hbyte 1 (by omega), hbyte 2 (by omega), hbyte 3 (by omega)⟩

/-- The colour of an index that is four bits of a byte (R491). -/
theorem palette16_extractLsb' (v : Byte) (k : Nat) :
    Config.palette16 (v.extractLsb' k 4) = colour (v.toNat / 2 ^ k % 16) := by
  have h : v.extractLsb' k 4 = BitVec.ofNat 4 (v.toNat / 2 ^ k % 16) :=
    BitVec.eq_of_toNat_eq (by simp [Nat.shiftRight_eq_div_pow])
  rw [h, colour]

/-! ### Graphics modes (R488 to R490) -/

theorem pixelColour_high {p : Snapshot} (h1 : p.modeCtrl.getLsbD 1 = true) (h4 : p.modeCtrl.getLsbD 4 = true)
    (blink : Bool) (x y : Nat) :
    pixelColour p blink x y =
      if (vramByte p.vram (y / 2 * 80 + y % 2 * 8192 + x / 8)).getLsbD (7 - x % 8) then ⟨0xFF, 0xFF, 0xFF⟩
      else ⟨0x00, 0x00, 0x00⟩ := by
  rw [pixelColour, pixelIndex, if_pos h1, if_pos h4, highPixel, scanlineBase]
  split <;> rfl

/-- The palette of the colour control (R489). -/
theorem palette16_mediumColour (colorCtrl : Byte) (idx : BitVec 2) :
    Config.palette16 (mediumColour colorCtrl idx) = mediumColourOf colorCtrl idx.toNat := by
  have hcases : ∀ i : BitVec 2, i = 0 ∨ i = 1 ∨ i = 2 ∨ i = 3 := by decide
  rcases hcases idx with rfl | rfl | rfl | rfl
  · simpa [mediumColour, mediumColourOf] using palette16_extractLsb' colorCtrl 0
  all_goals
    unfold mediumColour mediumColourOf
    cases colorCtrl.getLsbD 5 <;> cases colorCtrl.getLsbD 4 <;> rfl

/-- Two bits of a byte, counted from the left, as a digit in base 4 (R488). -/
theorem toNat_extract_pair (b : Byte) {k : Nat} (hk : k < 4) :
    (b.extractLsb' (6 - 2 * k) 2).toNat = b.toNat / 4 ^ (3 - k) % 4 := by
  have hpow : 4 ^ (3 - k) = 2 ^ (6 - 2 * k) := by rw [show 6 - 2 * k = 2 * (3 - k) by omega, Nat.pow_mul]
  rw [BitVec.extractLsb'_toNat, Nat.shiftRight_eq_div_pow, hpow]

theorem pixelColour_medium {p : Snapshot} (h1 : p.modeCtrl.getLsbD 1 = true) (h4 : p.modeCtrl.getLsbD 4 = false)
    (blink : Bool) {x u : Nat} (hu : u / 2 = x) (y : Nat) :
    pixelColour p blink u y =
      mediumColourOf p.colorCtrl
        ((vramByte p.vram (y / 2 * 80 + y % 2 * 8192 + x / 4)).toNat / 4 ^ (3 - x % 4) % 4) := by
  rw [pixelColour, pixelIndex, if_pos h1, if_neg (Bool.eq_false_iff.1 h4), mediumPixel, scanlineBase, hu,
    palette16_mediumColour, toNat_extract_pair _ (Nat.mod_lt x (by decide))]

/-- Settles O22: a render shows each pixel's colour, `shows_render`, and the colours are `pixelColour_high` and
`pixelColour_medium`. -/
theorem graphicsSurfaces : Obligations.GraphicsSurfaces := by
  refine fun p blink => ⟨length_render p blink, fun h1 h4 x y hx hy => ?_, fun h1 h4 x y hx hy => ?_⟩
  · rw [← pixelColour_high h1 h4 blink]
    exact shows_render p blink hx hy
  · intro idx
    have hpixel (u : Nat) (hu : u / 2 = x) : Shows (render p blink) u y (mediumColourOf p.colorCtrl idx) := by
      rw [← pixelColour_medium h1 h4 blink hu]
      exact shows_render p blink (by omega) hy
    exact ⟨hpixel (2 * x) (by omega), hpixel (2 * x + 1) (by omega)⟩

/-! ### Text modes (R483 to R487) -/

theorem palette16_attrBackground (modeCtrl attr : Byte) :
    Config.palette16 (attrBackground modeCtrl attr) =
      colour (if modeCtrl.getLsbD 5 then attr.toNat / 16 % 8 else attr.toNat / 16) := by
  have ha := attr.isLt
  have hdiv : attr.toNat / 2 ^ 4 % 16 = attr.toNat / 16 := by omega
  rw [attrBackground]
  split
  · rw [colour]
    congr 1
    apply BitVec.eq_of_toNat_eq
    simp [Nat.shiftRight_eq_div_pow]
  · rw [palette16_extractLsb', hdiv]

/-- On the screen a cursor is where it points, in the last two lines of the cell (R487). -/
theorem cursorOn_eq (p : Snapshot) (blink : Bool) {n l : Nat} (hn : n < 25 * columns p.modeCtrl) (hl : l < 8) :
    cursorOn p blink n l =
      (p.cursorVisible && !blink && decide (p.cursorPos.toNat = n) && decide (l = 6 ∨ l = 7)) := by
  have hline : (6 ≤ l) = (l = 6 ∨ l = 7) := propext (by omega)
  rw [cursorOn]
  by_cases h : p.cursorPos.toNat = n
  · simp [h, hn, hline]
  · simp [h, Ne.symm h]

theorem pixelColour_text {p : Snapshot} (h1 : p.modeCtrl.getLsbD 1 = false) (blink : Bool) {x y n l g : Nat}
    (hn : n < 25 * columns p.modeCtrl) (hcell : textCell p.modeCtrl x y = n) (hline : y % 8 = l)
    (hcol : glyphColumn p.modeCtrl x = g) : pixelColour p blink x y = textColour p blink n l g := by
  have hl : l < 8 := by omega
  rw [pixelColour, pixelIndex, if_neg (Bool.eq_false_iff.1 h1), textPixel, hcell, hline, hcol, textColour]
  simp only [cursorOn_eq p blink hn hl, blinkHides, ← palette16_attrBackground]
  split
  · simpa using palette16_extractLsb' (vramByte p.vram (2 * n + 1)) 0
  · rfl

/-- Settles O23: a render shows each pixel's colour, `shows_render`, which is that of its cell, `pixelColour_text`. -/
theorem textSurface : Obligations.TextSurface := by
  intro p blink r c l g h1 hr hl hg
  refine ⟨fun h0 hc => ?_, fun h0 hc => ?_⟩
  · have hC : columns p.modeCtrl = 80 := if_pos h0
    have hcell : textCell p.modeCtrl (8 * c + g) (8 * r + l) = r * 80 + c := by simp only [textCell, hC]; omega
    have hcol : glyphColumn p.modeCtrl (8 * c + g) = g := by simp only [glyphColumn, hC]; omega
    rw [← pixelColour_text h1 blink (by omega) hcell (by omega) hcol]
    exact shows_render p blink (by omega) (by omega)
  · have hC : columns p.modeCtrl = 40 := if_neg (Bool.eq_false_iff.1 h0)
    have hpixel (u : Nat) (hu : u / 2 = 8 * c + g) :
        Shows (render p blink) u (8 * r + l) (textColour p blink (r * 40 + c) l g) := by
      have hcell : textCell p.modeCtrl u (8 * r + l) = r * 40 + c := by simp only [textCell, hC]; omega
      have hcol : glyphColumn p.modeCtrl u = g := by simp only [glyphColumn, hC]; omega
      rw [← pixelColour_text h1 blink (by omega) hcell (by omega) hcol]
      exact shows_render p blink (by omega) (by omega)
    exact ⟨hpixel _ (by omega), hpixel _ (by omega)⟩

/-! ### The render task (R480, R481, R493, R495) -/

theorem Cga.renderTick_of_needed {c : Cga} {blink : Bool} (h : c.dirty = true ∨ blink ≠ c.lastBlinkPhase) :
    c.renderTick blink =
      { c with
        blinkPhase := blink, dirty := false, lastBlinkPhase := blink, surface := render c.snapshot blink
        presented := some c.snapshot.background } :=
  if_pos (by simpa [Cga.needsRender] using h)

theorem Cga.renderTick_of_not_needed {c : Cga} {blink : Bool} (h : ¬(c.dirty = true ∨ blink ≠ c.lastBlinkPhase)) :
    c.renderTick blink = { c with blinkPhase := blink } :=
  if_neg (by simpa [Cga.needsRender] using h)

/-- A tick writes only what the render task may write (R495). -/
theorem Cga.renderTick_frame (c : Cga) (blink : Bool) : c.renderTick blink = c.withRender (c.renderTick blink) := by
  by_cases h : c.dirty = true ∨ blink ≠ c.lastBlinkPhase
  · rw [Cga.renderTick_of_needed h, Cga.withRender]
  · rw [Cga.renderTick_of_not_needed h, Cga.withRender]

theorem Cga.withRender_of_frame {c d : Cga} (h : d = c.withRender d) (e : Cga) : d.withRender e = c.withRender e := by
  rw [h]
  rfl

theorem Cga.renderTicks_frame (c : Cga) (bs : List Bool) : c.renderTicks bs = c.withRender (c.renderTicks bs) := by
  induction bs generalizing c with
  | nil => rfl
  | cons b bs ih =>
    simp only [Cga.renderTicks]
    exact (ih (c.renderTick b)).trans (Cga.withRender_of_frame (c.renderTick_frame b) _)

/-- What the render task does at a moment: it ticks when its wait is over, and waits on before that (R480, U16). -/
theorem Cga.moment_spec (c : Cga) :
    if c.tickWait = 0 then
      ∃ b bs, c.moment = { (c.renderTick b).renderTicks bs with tickWait := c.moment.tickWait, ticks := c.ticks + 1 }
    else c.moment = { c with tickWait := c.tickWait - 1 } := by
  split_ifs with h
  · refine ⟨Config.tickBlink c.ticks, Config.moreTicks c.ticks, ?_⟩
    have hframe := c.renderTicks_frame (Config.tickBlink c.ticks :: Config.moreTicks c.ticks)
    rw [Cga.renderTicks] at hframe
    rw [hframe, Cga.moment]
    simp only [h, if_true]
    rfl
  · rw [Cga.moment]
    simp only [h, if_false]
    rfl

/-! What the processor reads is none of it (R495). -/

/-- A read of a port of the CGA gives what only the CRT registers and the status decide (R463, R469). -/
theorem Cga.portIn_fst_congr {c d : Cga} (hi : d.crtIndex = c.crtIndex) (hr : d.crtReg = c.crtReg)
    (hs : d.status = c.status) (p : Word) : (d.portIn p).1 = (c.portIn p).1 := by
  unfold Cga.portIn Cga.crtByte
  simp only [hi, hr, hs]
  split <;> rfl

/-- A change of the CGA that leaves its memory, its CRT registers and its status is none that the processor reads. -/
theorem State.reads_congr_cga (s : State) {d : Cga} (hv : d.vram = s.cga.vram) (hi : d.crtIndex = s.cga.crtIndex)
    (hr : d.crtReg = s.cga.crtReg) (hs : d.status = s.cga.status) :
    (∀ a, ({ s with cga := d } : State).read8 a = s.read8 a) ∧
      ∀ p, (({ s with cga := d } : State).portIn8 p).1 = (s.portIn8 p).1 := by
  refine ⟨fun a => State.read8_congr rfl hv rfl fun _ => rfl, fun p => ?_⟩
  unfold State.portIn8
  cases ioOwner s.ioMap p with
  | none => rfl
  | some dev =>
    cases dev with
    | cga => exact Cga.portIn_fst_congr hi hr hs p
    | pic => rfl
    | other n => rfl

/-! ### A tick between the two bytes of a word store (R104, R109, R529) -/

/-- Ticks after one that has rendered leave a render of the same snapshot (R480). -/
theorem Cga.renderTicks_surface {c : Cga} (p : Snapshot) (hp : c.snapshot = p) (bs : List Bool)
    (h : ∃ blink, c.surface = render p blink) : ∃ blink, (c.renderTicks bs).surface = render p blink := by
  induction bs generalizing c with
  | nil => exact h
  | cons b bs ih =>
    refine ih ?_ ?_
    · rw [c.renderTick_frame b]
      exact hp
    · by_cases hn : c.dirty = true ∨ b ≠ c.lastBlinkPhase
      · rw [Cga.renderTick_of_needed hn]
        exact ⟨b, by rw [hp]⟩
      · rw [Cga.renderTick_of_not_needed hn]
        exact h

/-- A moment at which the task ticks, with the dirty flag set, leaves a render of what it then sees (R480, R481). -/
theorem Cga.moment_surface {c : Cga} (hw : c.tickWait = 0) (hd : c.dirty = true) :
    ∃ blink, c.moment.surface = render c.snapshot blink := by
  have hspec := c.moment_spec
  rw [if_pos hw] at hspec
  obtain ⟨b, bs, hm⟩ := hspec
  rw [hm]
  refine Cga.renderTicks_surface c.snapshot ?_ bs ⟨b, ?_⟩
  · rw [c.renderTick_frame b]
    rfl
  · rw [Cga.renderTick_of_needed (.inl hd)]

theorem State.write8_of_cga {s : State} {a : Addr} (h : memOwner s.memMap a = some .cga) (v : Byte) :
    s.write8 a v = { s with cga := s.cga.moment.writeByte a v } := by
  rw [State.write8, h]

/-- A word stored to video memory when the task's wait ends between its bytes: the surface shows the first byte stored and
the second not (R104, R109, R529). -/
theorem State.torn_write16 {s : State} {a : Addr} (v : Word) (ha : memOwner s.memMap a = some .cga)
    (ha' : memOwner s.memMap (a + 1) = some .cga) (hw : s.cga.tickWait = 1) :
    ∃ blink, (s.write16 a v).cga.surface =
      render { s.cga.snapshot with vram := (s.write8 a (loByte v)).cga.vram } blink := by
  have hspec := s.cga.moment_spec
  rw [if_neg (by omega), hw] at hspec
  have hfirst := State.write8_of_cga ha (loByte v)
  rw [hspec] at hfirst
  rw [State.write16, State.write8_of_cga (by rwa [State.write8_memMap]), hfirst]
  exact Cga.moment_surface (c := Cga.writeByte _ a (loByte v)) rfl rfl

/-- Settles O24: a tick by `Cga.renderTick_of_needed` and `Cga.renderTick_frame`, a moment by `Cga.moment_spec`, what the
processor reads by `State.reads_congr_cga`, and the torn store by `State.torn_write16`. -/
theorem renderTickInvisible : Obligations.RenderTickInvisible := by
  refine ⟨fun c blink => ?_, Cga.moment_spec, fun s bs => ?_, fun s a v ha ha' hw => ?_⟩
  · refine ⟨c.renderTick_frame blink, ?_⟩
    by_cases h : c.dirty = true ∨ blink ≠ c.lastBlinkPhase
    · rw [if_pos h, Cga.renderTick_of_needed h]
      refine ⟨rfl, by rw [Cga.snapshot], rfl, rfl, ?_⟩
      simpa [Snapshot.background, Cga.snapshot] using palette16_extractLsb' c.colorCtrl 0
    · rw [if_neg h, Cga.renderTick_of_not_needed h]
      exact ⟨rfl, rfl⟩
  · have hframe := s.cga.renderTicks_frame bs
    have hticks := s.reads_congr_cga (d := s.cga.renderTicks bs) (by rw [hframe]; rfl) (by rw [hframe]; rfl)
      (by rw [hframe]; rfl) (by rw [hframe]; rfl)
    have hmoment := s.reads_congr_cga (d := s.cga.moment) rfl rfl rfl rfl
    exact ⟨hticks.1, hticks.2, hmoment⟩
  · obtain ⟨hlo, hhi⟩ := s.wordStored_write16 a v
    exact ⟨hlo.read8 (keeps_of_cga ha), hhi.read8 (keeps_of_cga ha'), State.torn_write16 v ha ha' hw⟩

end Sys2Proof.Machine

/-! SUPPORT. Reset, and the clocks of a run without end (70_reset_and_hazards.md R510 to R515, R530). -/

namespace Sys2Proof.Machine

/-! ### Reset (R51, R52, R440, R474, R510 to R512, R515) -/

theorem resetDevices_resetDevices (es : List DeviceEvent) : resetDevices (resetDevices es) = resetDevices es := by
  cases es with
  | nil => rfl
  | cons e es => cases e <;> rfl

theorem State.hostReset_hostReset (s : State) : s.hostReset.hostReset = s.hostReset := by
  have h : s.hostReset.hostReset = { s.hostReset with devices := resetDevices (resetDevices s.devices) } := rfl
  rw [h, resetDevices_resetDevices]
  rfl

/-- Settles O5: the values stand in `State.reset` and `Cga.resetRegs`, and a second reset adds nothing to the history of
the platform's devices, `State.hostReset_hostReset`. -/
theorem resetValues : Obligations.ResetValues := by
  refine fun s => ⟨?_, s.hostReset_hostReset, fun p now => ⟨rfl, rfl, rfl, rfl, rfl⟩⟩
  have hregs (r : Reg16) : s.hostReset.get16 r = 0 := by cases r <;> rfl
  have himage : s.hostReset.flags.image = 0xF002 := by
    have hflags : s.hostReset.flags = ⟨false, false, false, false, false, false, false, false, false⟩ := rfl
    rw [hflags]
    decide
  have hcrt (k : Fin 256) : s.hostReset.cga.crtReg[k] = 0 := Vector.getElem_replicate ..
  exact ⟨rfl, rfl, rfl, rfl, rfl, hregs, rfl, himage, rfl, rfl, rfl, rfl, rfl, rfl, rfl, rfl, rfl, rfl, rfl, rfl, rfl,
    rfl, hcrt, rfl, rfl, rfl, rfl, rfl, rfl, rfl, rfl, rfl, rfl, rfl, rfl, rfl, rfl, rfl, rfl, rfl, rfl, rfl⟩

/-! ### Infinitely often -/

/-- What holds at every turn at which a well-founded measure does not fall holds infinitely often. -/
theorem infinitelyOften_of_measure {α : Type} [Preorder α] [WellFoundedLT α] {P : Nat → Prop} (μ : Nat → α)
    (h : ∀ k, P k ∨ μ (k + 1) < μ k) : InfinitelyOften P := by
  suffices key : ∀ x n, μ n = x → ∃ m, n ≤ m ∧ P m from fun n => key _ n rfl
  intro x
  induction x using WellFoundedLT.induction with
  | ind x ih =>
    rintro n rfl
    rcases h n with hP | hlt
    · exact ⟨n, Nat.le_refl n, hP⟩
    · obtain ⟨m, hnm, hm⟩ := ih _ hlt (n + 1) rfl
      exact ⟨m, by omega, hm⟩

/-! ### One turn of a run (R11, R471, R480) -/

/-- At most how many turns pass before one in which the host's clock moves. -/
def State.clockWait (s : State) : Nat := s.inputs.length + s.timeWait

/-- A turn of the host moves its clock, or the wait for that gets shorter (R471, U16). -/
theorem State.clockWait_takeInput (s : State) :
    0 < s.nextInput.elapsedNs ∨ s.takeInput.clockWait < s.clockWait := by
  unfold State.clockWait State.takeInput State.nextInput
  cases h : s.inputs with
  | cons i is => right; simp
  | nil =>
    by_cases hw : s.timeWait = 0
    · left; simp [State.drawnInput, hw]
    · right; simp [State.waited, hw]; omega

/-- A moment after progress ticks, or leaves a shorter wait (R480, U16). -/
theorem TickProgress.moment_lt {c d : Cga} (h : TickProgress c d) :
    c.ticks < d.moment.ticks ∨ d.moment.tickWait < c.tickWait := by
  unfold TickProgress at h
  rcases d.moment_progress with ht | ⟨ht, hw⟩ <;> omega

/-- The end of a turn after which the run goes on (R11, R409, R480). -/
theorem State.afterStep_of_not_ended {s : State} (h : s.ended = false) (e : Nat) :
    s.afterStep e = (s.counted.stepPeripherals e).renderMoment := by
  rw [State.afterStep, h]
  rfl

/-- A turn after which the run goes on (R11, R471, R480). -/
structure TurnTaken (s t : State) : Prop where
  /-- the render task ticks, or its wait gets shorter -/
  ticks : s.cga.ticks < t.cga.ticks ∨ t.cga.tickWait < s.cga.tickWait
  /-- the host's clock moves, or its wait gets shorter -/
  clock : s.now < t.now ∨ t.now = s.now ∧ t.clockWait < s.clockWait
  /-- as many scanlines pass as whole periods have -/
  scanlines : t.cga.lastScanlineNs = s.cga.lastScanlineNs + (t.now - s.cga.lastScanlineNs) / 31469 * 31469

theorem turnTaken_of_step {s t : State} (h : step s = .next t) (he : t.ended = false) : TurnTaken s t := by
  obtain ⟨u, hhost, hticks, hlast, rfl⟩ := step_turn h
  obtain ⟨-, -, -, hnow, -, hinputs, -, hwait, -⟩ := hhost
  have hu : u.ended = false := by
    rw [(u.afterStep_spec _).2] at he
    exact he
  have hclock := s.clockWait_takeInput
  have hnow' : u.now = s.now := hnow
  have hclockWait : u.clockWait = s.takeInput.clockWait := by rw [State.clockWait, hinputs, hwait, State.clockWait]
  rw [State.afterStep_of_not_ended hu]
  refine ⟨(hticks.congr rfl rfl).moment_lt, ?_, ?_⟩
  · show s.now < u.now + s.nextInput.elapsedNs ∨ u.now + s.nextInput.elapsedNs = s.now ∧ u.clockWait < s.clockWait
    omega
  · rw [← hlast]
    exact u.cga.step_lastScanlineNs u.counted.cycles (u.now + s.nextInput.elapsedNs)

/-- Every turn of a run without end is one after which the run goes on (R409). -/
theorem IsRun.turnTaken {r : Nat → State} (h : IsRun r) (k : Nat) : TurnTaken (r k) (r (k + 1)) := by
  refine turnTaken_of_step (h k) (Bool.eq_false_iff.2 fun he => ?_)
  have hnext := h (k + 1)
  rw [step_of_ended he] at hnext
  cases hnext

/-! ### Fairness (R530) -/

theorem ticksOccur_of_isRun {r : Nat → State} (h : IsRun r) : TicksOccur r :=
  infinitelyOften_of_measure (fun k => (r k).cga.tickWait) fun k => (h.turnTaken k).ticks

/-- How far the clock is from the next scanline, and then how far the host is from moving it. -/
def State.scanlineWait (s : State) : Nat ×ₗ Nat := toLex (s.cga.lastScanlineNs + 31469 - s.now, s.clockWait)

theorem TurnTaken.scanlineWait_lt {s t : State} (h : TurnTaken s t)
    (hn : ¬s.cga.lastScanlineNs < t.cga.lastScanlineNs) : t.scanlineWait < s.scanlineWait := by
  have hscan := h.scanlines
  simp only [State.scanlineWait, Prod.Lex.toLex_lt_toLex]
  rcases h.clock with hmoves | ⟨hstill, hwait⟩
  · left; omega
  · right; omega

theorem scanlinesAdvance_of_isRun {r : Nat → State} (h : IsRun r) : ScanlinesAdvance r :=
  infinitelyOften_of_measure (fun k => (r k).scanlineWait) fun k =>
    or_iff_not_imp_left.2 (h.turnTaken k).scanlineWait_lt

/-- Settles O60: both clocks by `infinitelyOften_of_measure`, over the waits that a turn shortens, `IsRun.turnTaken`. -/
theorem fairClocks : Obligations.FairClocks := fun _ h =>
  have hs := scanlinesAdvance_of_isRun h
  have ht := ticksOccur_of_isRun h
  ⟨hs, ht, fun hf => hf.2.2, fun hr => ⟨hs, ht, hr⟩⟩

end Sys2Proof.Machine
